-- ==== Sys2Proof/Word.lean ====
section
/-! DEFINITION. The words of the clock CORE and the modular arithmetic of spec/00_scope.md R12. -/

namespace Sys2Proof

/-- One byte of the timer-side register space (R55). -/
abbrev Byte := BitVec 8

/-- A raw-counter or compare value: exactly 24 bits (R10). -/
abbrev Word24 := BitVec 24

/-- The two 16-bit latches `CNT_LATCH` and `CMP_HOLD` (R24, R26). -/
abbrev Half := BitVec 16

/-- A value of `TICK_W` bits (R9), held as the unsigned integer R12 says it is. The width is a parameter of the
instance, so it bounds the value (`Sys2Proof.Machine.State.InRange`) and not its type. DESIGN CHOICE, safe (log 2). -/
abbrev Tick := Nat

/-- `a +_N b` of R12. -/
def addMod (n a b : Nat) : Nat := (a + b) % 2 ^ n

/-- `a -_N b` of R12, on any two integers. -/
def subMod (n a b : Nat) : Nat := (a % 2 ^ n + (2 ^ n - b % 2 ^ n)) % 2 ^ n

end Sys2Proof
end

