-- ==== Sys2Proof/Config.lean ====
section
/-! DEFINITION. What an instance of the hardware fixes (spec/00_scope.md R4 to R8), the inputs of a run (the draws, the
command port, RESET), and the free value that supplies them where State lists none. -/

namespace Sys2Proof

/-- The parameters of one instance: "A model takes them as arguments (a configuration record)" (R4 to R6). -/
structure Config where
  /-- `TICK_W`, the width of TickCounter and of every tick-valued quantity (R4). -/
  tickW : Nat
  /-- `TICKS_PER_SECOND` (R5). -/
  ticksPerSecond : Nat
  /-- `TIMER_HZ` (R6). It enters the machine only through `tickInterval`. -/
  timerHz : Nat
deriving DecidableEq, Repr

/-- `TICK_INTERVAL = floor(TIMER_HZ / TICKS_PER_SECOND)` (R7). -/
def Config.tickInterval (c : Config) : Nat := c.timerHz / c.ticksPerSecond

/-- `JIFFY = floor(1000 / TICKS_PER_SECOND)` (R8). -/
def Config.jiffy (c : Config) : Nat := 1000 / c.ticksPerSecond

/-- The constraints of R4, R5 and R7: a record that violates one "is not a configuration of this hardware". -/
abbrev Config.Legal (c : Config) : Prop :=
  2 ≤ c.tickW ∧ 1 ≤ c.ticksPerSecond ∧ c.ticksPerSecond ≤ 1000 ∧ c.ticksPerSecond < 2 ^ c.tickW ∧
    1 ≤ c.tickInterval ∧ c.tickInterval ≤ 2 ^ 24 - 1

/-- Configuration A of spec/95_test_vectors.md: the instance that `State.reset` is. DESIGN CHOICE, unsafe (log 1). -/
def Config.standard : Config := ⟨16, 128, 4096⟩

/-- The levels of the CORE's inputs at a micro-step: each is a draw where a rule samples it (R34 to R36). -/
structure Pins where
  /-- `LOAD_READY`, bit 0 of `TSTAT` (R34). -/
  loadReady : Bool
  /-- `OSC_OK` (R35). -/
  oscOk : Bool
  /-- `ET_PENDING` (R36). -/
  etPending : Bool
  /-- `ET_NEXT`, `TICK_W` bits (R36). -/
  etNext : Tick
deriving DecidableEq, Repr, Inhabited

/-- What the registers of unspecified reset value hold after a RESET: any value of their width
(spec/93_implementation_defined.md U12). -/
structure ResetFill where
  snap : Word24
  newcmp : Word24
  dlyStart : Tick
  dlyTicks : Tick
  cntLatch : Half
  cmp : Word24
  cmpHold : Half
deriving DecidableEq, Repr, Inhabited

/-- One turn of a run (R43): which agent takes its micro-step next, with what the environment supplies to it.
DESIGN CHOICE, safe (log 5). -/
inductive Turn
  /-- A COUNTER step (R142). -/
  | counter
  /-- A turn of MAINLINE: the word the requester offers to an empty port (R75) and the levels of the inputs. -/
  | mainline (offer : Option Nat) (pins : Pins)
  /-- A turn of ISR, with the levels of the inputs. -/
  | isr (pins : Pins)
  /-- The RESET event (R170), with the contents of the registers it leaves unspecified. -/
  | reset (fill : ResetFill)
deriving DecidableEq, Repr, Inhabited

/-- The turns of a run beyond those that State lists: any agent, any draw, "a free input of the step" (R13, R43).
It has no body, so that every claim holds for every schedule and every draw. DESIGN CHOICE, safe (log 5). -/
opaque Config.freeTurn : Nat → Turn

end Sys2Proof
end

