-- ==== Sys2Proof/Syntax.lean ====
section
/-! DEFINITION. The operations of the clock CORE: one constructor per row of spec/opcode_table.json
(spec/30_encoding.md R71). -/

namespace Sys2Proof

/-- The eight operations of R71. -/
inductive Instr
  /-- `clock_init()`, code 0x0 (R111). It takes no operand and ignores CMD_ARG (R72). -/
  | clockInit
  /-- `clock_time()`, code 0x1 (R115). -/
  | clockTime
  /-- `clock_seconds()`, code 0x2 (R116). -/
  | clockSeconds
  /-- `clock_delay(ms)`, code 0x3 (R117), with `ms = CMD_ARG` as it stands (R72). -/
  | clockDelay (ms : Tick)
  /-- `INIT_CLOCK_SOURCE`, internal code 0x4 (R90). -/
  | initClockSource
  /-- `READ_RAW_COUNTER`, internal code 0x5 (R91). -/
  | readRawCounter
  /-- `ARM_NEXT_COMPARE`, internal code 0x6 (R92). Its interval is always TICK_INTERVAL and not encoded (R72, R94). -/
  | armNextCompare
  /-- `TICK_ISR`, internal code 0x7 (R112). -/
  | tickIsr
deriving DecidableEq, Repr

/-- The operation's 4-bit code (R71). -/
def Instr.code : Instr → Nat
  | .clockInit => 0x0
  | .clockTime => 0x1
  | .clockSeconds => 0x2
  | .clockDelay _ => 0x3
  | .initClockSource => 0x4
  | .readRawCounter => 0x5
  | .armNextCompare => 0x6
  | .tickIsr => 0x7

/-- The operations of format C, which a requester may present (R71, R73). -/
def Instr.isCommand : Instr → Bool
  | .clockInit => true
  | .clockTime => true
  | .clockSeconds => true
  | .clockDelay _ => true
  | .initClockSource => false
  | .readRawCounter => false
  | .armNextCompare => false
  | .tickIsr => false

end Sys2Proof
end

