-- ==== Sys2Proof/WellFormed.lean ====
section
/-! DEFINITION. Well-formed operations under a configuration: the one operand fits its field (spec/30_encoding.md R72,
R78: an unsigned integer below `2^TICK_W`). -/

namespace Sys2Proof

/-- The operand fits `TICK_W` bits (R9, R78). The other operations have no operand. -/
def Instr.wellFormed (c : Config) : Instr → Bool
  | .clockInit => true
  | .clockTime => true
  | .clockSeconds => true
  | .clockDelay ms => decide (ms < 2 ^ c.tickW)
  | .initClockSource => true
  | .readRawCounter => true
  | .armNextCompare => true
  | .tickIsr => true

end Sys2Proof
end

