-- ==== Sys2Proof/Decode.lean ====
section
/-! DEFINITION. Command words `CW = CMD_OP ∥ CMD_ARG` (spec/30_encoding.md R70), the operation table (R71), the decoder
of the command port (R80), total on every word, the encoder, and the call syntax of a listing (R78). -/

namespace Sys2Proof

/-- Why a word has no operation. -/
inductive DecodeError
  /-- The value does not fit a command word of `4 + TICK_W` bits (log 13). -/
  | notACommandWord
  /-- Codes 0x4 to 0x7, which no port carries (R73, R74). -/
  | internalCode (code : Nat)
  /-- Codes 0x8 to 0xF (R74). -/
  | reservedCode (code : Nat)
deriving DecidableEq, Repr

/-- `CMD_OP = CW[TICK_W+3 : TICK_W]` (R70). -/
def Config.cmdOp (c : Config) (cw : Nat) : Nat := cw / 2 ^ c.tickW % 16

/-- `CMD_ARG = CW[TICK_W-1 : 0]` (R70). -/
def Config.cmdArg (c : Config) (cw : Nat) : Nat := cw % 2 ^ c.tickW

/-- `CMD_OP ∥ CMD_ARG` (R70). -/
def Config.commandWord (c : Config) (op arg : Nat) : Nat := op % 16 * 2 ^ c.tickW + arg % 2 ^ c.tickW

/-- The operation table: all eight rows of R71, internal ones included. Only `CLOCK_DELAY` looks at the operand (R72). -/
def decodeOperation (code arg : Nat) : Except DecodeError Instr :=
  match code with
  | 0x0 => .ok .clockInit
  | 0x1 => .ok .clockTime
  | 0x2 => .ok .clockSeconds
  | 0x3 => .ok (.clockDelay arg)
  | 0x4 => .ok .initClockSource
  | 0x5 => .ok .readRawCounter
  | 0x6 => .ok .armNextCompare
  | 0x7 => .ok .tickIsr
  | n => .error (.reservedCode n)

/-- The command port's decoder (R74, R80): the rows of the table whose port is the command port. -/
def decodeCommand (c : Config) (cw : Nat) : Except DecodeError Instr :=
  if cw < 2 ^ (c.tickW + 4) then
    match decodeOperation (c.cmdOp cw) (c.cmdArg cw) with
    | .ok i => if i.isCommand then .ok i else .error (.internalCode i.code)
    | .error e => .error e
  else .error .notACommandWord

/-- The value of an operation's operand field, 0 where it has none (R72). -/
def Instr.operand : Instr → Nat
  | .clockInit => 0
  | .clockTime => 0
  | .clockSeconds => 0
  | .clockDelay ms => ms
  | .initClockSource => 0
  | .readRawCounter => 0
  | .armNextCompare => 0
  | .tickIsr => 0

/-- The canonical word of an operation (R72, R81). For an internal operation it is the code the table gives, which no
port carries (R73). -/
def encode (c : Config) (i : Instr) : Nat := c.commandWord i.code i.operand

/-- The table's word laid out as a command word: the table numbers CMD_OP as bits 3..0, so what the table calls higher
bits is CMD_ARG, from its bit 0 upwards (log 15). -/
def Config.wordOfTable (c : Config) (nbits w : Nat) : Nat := c.commandWord (w % 2 ^ nbits) (w % 2 ^ nbits / 16)

/-- The operation the table decoder reads from a word numbered as spec/opcode_table.json numbers it, in the
configuration of `State.reset` (log 15). -/
def decodeTableWord (nbits w : Nat) : Option Instr :=
  let cw := Config.standard.wordOfTable nbits w
  (decodeOperation (Config.standard.cmdOp cw) (Config.standard.cmdArg cw)).toOption

/-! ## The call syntax of a listing (R78) -/

/-- The value of a digit in a base up to 16, with letters of either case (log 25). -/
def digitValue (base : Nat) (ch : Char) : Option Nat :=
  let n := ch.toNat
  let v := if 48 ≤ n ∧ n ≤ 57 then n - 48 else if 65 ≤ n ∧ n ≤ 70 then n - 55 else if 97 ≤ n ∧ n ≤ 102 then n - 87 else base
  if v < base then some v else none

/-- A run of digits, most significant first, after the value `acc`. -/
def readDigits (base acc : Nat) : List Char → Option Nat
  | [] => some acc
  | ch :: cs => (digitValue base ch).bind fun d => readDigits base (acc * base + d) cs

/-- An unsigned integer, "decimal or `0x` hexadecimal" (R78). -/
def readNumber : List Char → Option Nat
  | [] => none
  | '0' :: 'x' :: ch :: cs => readDigits 16 0 (ch :: cs)
  | cs => readDigits 10 0 cs

/-- The command a line of a listing stands for: the four call forms of R78, the operand below `2^TICK_W`. -/
def commandOfText (c : Config) (line : List Char) : Option Instr :=
  if line = "clock_init()".toList then some .clockInit
  else if line = "clock_time()".toList then some .clockTime
  else if line = "clock_seconds()".toList then some .clockSeconds
  else if "clock_delay(".toList.isPrefixOf line ∧ line.getLast? = some ')' then
    (readNumber (line.drop 12).dropLast).bind fun ms => if ms < 2 ^ c.tickW then some (.clockDelay ms) else none
  else none

/-- The listing's line for a command, its operand in decimal (R78). The internal operations have none (R73). -/
def textOfCommand : Instr → Option (List Char)
  | .clockInit => some "clock_init()".toList
  | .clockTime => some "clock_time()".toList
  | .clockSeconds => some "clock_seconds()".toList
  | .clockDelay ms => some ("clock_delay(".toList ++ Nat.toDigits 10 ms ++ [')'])
  | .initClockSource => none
  | .readRawCounter => none
  | .armNextCompare => none
  | .tickIsr => none

end Sys2Proof
end

