-- ==== Sys2Proof/Machine/State.lean ====
section
/-! DEFINITION. The state of the clock CORE and of the timer beside it (spec/10_state.md R20), the reasons a step can
stop, and the state right after reset (spec/70_reset_and_hazards.md R171). -/

namespace Sys2Proof.Machine

/-- `PHASE` (R22, R110). -/
inductive Phase
  | uninitialized
  | running
deriving DecidableEq, Repr

/-- The eight micro-steps A0 to A7 of `ARM_NEXT_COMPARE` (R92). -/
inductive ArmPos
  | a0
  | a1
  | a2
  | a3
  | a4
  | a5
  | a6
  | a7
deriving DecidableEq, Repr

/-- `MSEQ`, the mainline sequencer's position (R31): `M_IDLE`, `M_OSC`, `M_ARM(a)`, `M_EN`, `M_POLL`. -/
inductive MSeq
  | idle
  | osc
  | arm (a : ArmPos)
  | en
  | poll
deriving DecidableEq, Repr

/-- `ISEQ`, the interrupt sequencer's position (R30): `I_IDLE`, `I_ARM(a)`, `I_INC`, `I_CHK`, `I_CLR`, `I_RET`. -/
inductive ISeq
  | idle
  | arm (a : ArmPos)
  | inc
  | chk
  | clr
  | ret
deriving DecidableEq, Repr

/-- The events of the history (R41). -/
inductive Event
  /-- `CMD(op, arg)`: a command is accepted (R75). -/
  | cmd (op : Nat) (arg : Tick)
  /-- `RSP(op, data)`: it is complete (R76). -/
  | rsp (op : Nat) (data : Option Tick)
  /-- `POLL_REQ` (R37). -/
  | pollReq
  /-- `IRQ_ENTRY` (R144). -/
  | irqEntry
  /-- `IRQ_RET` (R145). -/
  | irqRet
  /-- `MATCH` (R142). -/
  | matched
  /-- `ADOPT(v)` (R65). -/
  | adopt (v : Word24)
  /-- The model's own mark of a RESET event, which R41 allows ("at least these events"). DESIGN CHOICE, safe (log 14). -/
  | reset
deriving DecidableEq, Repr

/-- The machine's state: R20's elements under their names, and the model's own fields at the end. -/
structure State where
  /-- The parameters of the instance, which no step changes (R39; log 1). -/
  config : Config
  /-- `TickCounter` (R21). -/
  tickCounter : Tick
  /-- `PHASE` (R22). -/
  phase : Phase
  /-- `MSEQ` (R31). -/
  mseq : MSeq
  /-- `ISEQ` (R30). -/
  iseq : ISeq
  /-- `SNAP` (R32). -/
  snap : Word24
  /-- `NEWCMP` (R32). -/
  newcmp : Word24
  /-- `DLY_START` (R33). -/
  dlyStart : Tick
  /-- `DLY_TICKS` (R33). -/
  dlyTicks : Tick
  /-- `OSC_REQ` (R35). -/
  oscReq : Bool
  /-- `RawCounter` (R25). -/
  rawCounter : Word24
  /-- `CNT_LATCH` (R26). -/
  cntLatch : Half
  /-- `CMP` (R23). -/
  cmp : Word24
  /-- `CMP_HOLD` (R24). -/
  cmpHold : Half
  /-- `ARMED` (R27). -/
  armed : Bool
  /-- `IRQ_PENDING` (R28). -/
  irqPending : Bool
  /-- `IRQ_ENABLE` (R29). -/
  irqEnable : Bool
  /-- The event history, oldest first (R41). -/
  history : List Event
  /-- The model's own: the word presented on the command port and not yet accepted (R75; log 7). -/
  port : Option Nat
  /-- The model's own: the levels of the inputs at this micro-step (R34 to R36; log 5). -/
  pins : Pins
  /-- The model's own: the turns that come next, before the free ones (log 5). -/
  turns : List Turn
  /-- The model's own: the number of the next free turn (log 5). -/
  turnNo : Nat
deriving DecidableEq, Repr

/-- The machine has no fault: "No synchronous exception exists" (R140), and no point of
spec/93_implementation_defined.md "has the treatment fault" (log 18). -/
inductive Fault
deriving DecidableEq, Repr

/-- The reasons a request has no meaning (R13 `refuse`). All are safe: the run ends, and nothing can be claimed of it. -/
inductive Refusal
  /-- Raised by exec for an instruction without a meaning: no arm is one. Safe. -/
  | notModelled (mnemonic : String)
  /-- Raised at acceptance of a command word with one of the codes 0x4 to 0x7 (R74). Safe. -/
  | internalCodeOnPort (code : Nat)
  /-- Raised at acceptance of a command word with one of the codes 0x8 to 0xF (R74). Safe. -/
  | reservedCode (code : Nat)
  /-- Raised at acceptance of a port value that no word of `4 + TICK_W` bits is (R70; log 13). Safe. -/
  | notACommandWord
  /-- Raised by CLOCK_TIME, CLOCK_SECONDS and CLOCK_DELAY accepted while PHASE is Uninitialized (R124). Safe. -/
  | beforeClockInit (code : Nat)
  /-- Raised by CLOCK_INIT accepted while PHASE is Running (R125). Safe. -/
  | secondClockInit
  /-- Raised by a read of the timer-side space at an address that is not read (R58). Safe. -/
  | timerSpaceRead (addr : Nat)
  /-- Raised by a write of the timer-side space at an address that is not written (R58). Safe. -/
  | timerSpaceWrite (addr : Nat)
  /-- Raised by an internal operation that no sequencer has started (R73; log 11). Safe. -/
  | notInProgress (code : Nat)
  /-- Raised by step where the parameters are "not a configuration of this hardware" (R7, U14). Safe. -/
  | illegalConfiguration
deriving DecidableEq, Repr

/-- The machine right after reset (R171). TickCounter, PHASE, the two sequencers and the four bits hold the values R171
states. The registers R171 leaves unspecified hold 0: DESIGN CHOICE, unsafe (log 3, log 4). The configuration and the
model's own fields: DESIGN CHOICE (log 1, log 23). -/
def State.reset : State where
  config := Config.standard
  tickCounter := 0
  phase := .uninitialized
  mseq := .idle
  iseq := .idle
  snap := 0
  newcmp := 0
  dlyStart := 0
  dlyTicks := 0
  oscReq := false
  rawCounter := 0
  cntLatch := 0
  cmp := 0
  cmpHold := 0
  armed := false
  irqPending := false
  irqEnable := false
  history := []
  port := none
  pins := ⟨false, false, false, 0⟩
  turns := []
  turnNo := 0

end Sys2Proof.Machine
end

