-- ==== Sys2Proof/Machine/Operands.lean ====
section
/-! DEFINITION. The values the operations compute with: byte fields of the 24-bit values (spec/20_memory.md R52), the
latches (R51), and the arithmetic of spec/41_tick_service.md R122. -/

namespace Sys2Proof.Machine

/-- `v[7:0]`, the low byte (R52). -/
def lowByte (v : Word24) : Byte := v.extractLsb' 0 8

/-- `v[15:8]`, the mid byte (R52). -/
def midByte (v : Word24) : Byte := v.extractLsb' 8 8

/-- `v[23:16]`, the high byte (R52). -/
def highByte (v : Word24) : Byte := v.extractLsb' 16 8

/-- `v[23:8]`, what a read of `CNT0` latches (R51). -/
def upperHalf (v : Word24) : Half := v.extractLsb' 8 16

/-- `h[7:0]` of a latch. -/
def halfLow (h : Half) : Byte := h.extractLsb' 0 8

/-- `h[15:8]` of a latch. -/
def halfHigh (h : Half) : Byte := h.extractLsb' 8 8

/-- `high ∥ mid ∥ low` (R52). -/
def ofBytes (high mid low : Byte) : Word24 := high ++ mid ++ low

/-- `v[7:0] <- b` (R91, step A0). -/
def setLowByte (v : Word24) (b : Byte) : Word24 := ofBytes (highByte v) (midByte v) b

/-- `v[15:8] <- b` (R91, step A1). -/
def setMidByte (v : Word24) (b : Byte) : Word24 := ofBytes (highByte v) b (lowByte v)

/-- `v[23:16] <- b` (R91, step A2). -/
def setHighByte (v : Word24) (b : Byte) : Word24 := ofBytes b (midByte v) (lowByte v)

/-- `h[7:0] <- b` (R51, write of `CMP1`). -/
def setHalfLow (h : Half) (b : Byte) : Half := halfHigh h ++ b

/-- `h[15:8] <- b` (R51, write of `CMP2`). -/
def setHalfHigh (h : Half) (b : Byte) : Half := b ++ halfLow h

/-- `CMP_HOLD ∥ byte`, the value a write of `CMP0` adopts (R51). -/
def adoptedValue (hold : Half) (b : Byte) : Word24 := hold ++ b

/-- `TICK_INTERVAL` as the 24-bit operand `interval` (R92, R94). -/
def intervalWord (c : Config) : Word24 := BitVec.ofNat 24 c.tickInterval

/-- `SNAP +_24 interval` (R93). -/
def reloadValue (snap interval : Word24) : Word24 := snap + interval

/-- `RawCounter +_24 1` (R142). -/
def counterSucc (raw : Word24) : Word24 := raw + 1

/-- `TickCounter +_W 1` (R112, step I_INC). -/
def tickSucc (c : Config) (t : Tick) : Tick := addMod c.tickW t 1

/-- `floor(TickCounter / TICKS_PER_SECOND)` (R116). -/
def secondsOf (c : Config) (t : Tick) : Tick := t / c.ticksPerSecond

/-- `floor(ms / JIFFY)` (R118). -/
def delayTicksOf (c : Config) (ms : Tick) : Tick := ms / c.jiffy

/-- `now -_W start`, the elapsed tick count (R117). -/
def elapsedTicks (c : Config) (now start : Tick) : Tick := subMod c.tickW now start

/-- The number of COUNTER steps to the next match while `ARMED = 1` (R95). -/
def distanceToMatch (cmp raw : Word24) : Nat := (cmp - raw - 1).toNat + 1

end Sys2Proof.Machine
end

