-- ==== Sys2Proof/Machine/Flags.lean ====
section
/-! DEFINITION. The derived predicates and the conditions the machine tests: contexts (spec/10_state.md R30, R31), what
is enabled (R44, spec/60_exceptions.md R144, spec/30_encoding.md R75), and the comparisons of R122 (7) and (8). -/

namespace Sys2Proof.Machine

/-- `IN_ISR`: the machine is in the interrupt context (R30, R149). -/
abbrev State.InIsr (s : State) : Prop := s.iseq ≠ .idle

/-- `BUSY`: a command is in progress (R31). -/
abbrev State.Busy (s : State) : Prop := s.mseq ≠ .idle

/-- The port can accept: `MSEQ = M_IDLE` and `ISEQ = I_IDLE` (R75). -/
abbrev State.CanAccept (s : State) : Prop := s.mseq = .idle ∧ s.iseq = .idle

/-- Interrupt entry is enabled (R144). -/
abbrev State.EntryEnabled (s : State) : Prop := s.irqPending = true ∧ s.irqEnable = true ∧ s.iseq = .idle

/-- The comparator's condition when the counter arrives at `raw` (R142). -/
abbrev Matches (armed : Bool) (raw cmp : Word24) : Prop := armed = true ∧ raw = cmp

/-- `expired(n, now)`: `(now -_W n) < 2^(W-1)` (R114). The half range is PRESUMED, unsafe (log 22). -/
abbrev Expired (c : Config) (n now : Tick) : Prop := subMod c.tickW now n < 2 ^ (c.tickW - 1)

/-- The completion test of `CLOCK_DELAY` (R117): the elapsed count has reached `DLY_TICKS`. -/
abbrev State.DelayDone (s : State) : Prop := s.dlyTicks ≤ elapsedTicks s.config s.tickCounter s.dlyStart

/-- The step of `ARM_NEXT_COMPARE` at which the interrupt sequencer stands, if any (R30). -/
def ISeq.armPos : ISeq → Option ArmPos
  | .arm a => some a
  | .idle => none
  | .inc => none
  | .chk => none
  | .clr => none
  | .ret => none

/-- The step of `ARM_NEXT_COMPARE` at which the mainline sequencer stands, if any (R31). -/
def MSeq.armPos : MSeq → Option ArmPos
  | .arm a => some a
  | .idle => none
  | .osc => none
  | .en => none
  | .poll => none

/-- The step of `ARM_NEXT_COMPARE` at which the sequencer that runs stands: `ISEQ` in the interrupt context, else
`MSEQ` (R44; `SEQ` of spec/40_timer_driver.md). -/
def State.armPos (s : State) : Option ArmPos := if s.InIsr then s.iseq.armPos else s.mseq.armPos

end Sys2Proof.Machine
end

