-- ==== Sys2Proof/Machine/Ops.lean ====
section
/-! DEFINITION. The named operations over State: the access primitives of the timer-side space (spec/20_memory.md R65),
the COUNTER step (spec/60_exceptions.md R142), interrupt entry and return (R144, R145), RESET
(spec/70_reset_and_hazards.md R170), the command port (spec/30_encoding.md R75, R76), and the micro-steps the operations
of spec/40_timer_driver.md share. -/

namespace Sys2Proof.Machine

/-- The outcome of a micro-step. -/
abbrev Result := Host.Outcome State Fault Refusal

/-! ## The history and the inputs -/

/-- `emit E` (R13, R41). -/
def State.emit (s : State) (e : Event) : State := { s with history := s.history ++ [e] }

/-- The levels of the inputs at this micro-step, each as wide as its wire (R34 to R36; log 8). -/
def State.latchPins (s : State) (p : Pins) : State :=
  { s with pins := { p with etNext := p.etNext % 2 ^ s.config.tickW } }

/-- The requester offers a word of `4 + TICK_W` bits to the port. A word already presented stays (R75; log 7, log 8). -/
def State.present (s : State) (offer : Option Nat) : State :=
  match s.port with
  | some _ => s
  | none => { s with port := offer.map (· % 2 ^ (s.config.tickW + 4)) }

/-- Acceptance up to the choice of the operation (R75): `CMD(op, arg)` is emitted, and the word leaves the port. -/
def State.accept (s : State) (cw : Nat) : State :=
  { s with port := none, history := s.history ++ [.cmd (s.config.cmdOp cw) (s.config.cmdArg cw)] }

/-- `emit RSP(op, data)`, after which `MSEQ = M_IDLE` (R76). -/
def State.respond (s : State) (op : Nat) (data : Option Tick) : State :=
  { s with mseq := .idle, history := s.history ++ [.rsp op data] }

/-- The turn that comes next, and the state without it: the first listed one, else the next free one (log 5). -/
def State.takeTurn (s : State) : Turn × State :=
  match s.turns with
  | t :: ts => (t, { s with turns := ts })
  | [] => (Config.freeTurn s.turnNo, { s with turnNo := s.turnNo + 1 })

/-! ## The timer-side register space -/

/-- `MemRead(a, 1)` (R51, R65): the byte and the state after the read. Addresses that no operation reads are
refused (R58). -/
def State.memRead (s : State) (a : BitVec 3) : Except Refusal (Byte × State) :=
  match a.toNat with
  | 0 => .ok (lowByte s.rawCounter, { s with cntLatch := upperHalf s.rawCounter })
  | 1 => .ok (halfLow s.cntLatch, s)
  | 2 => .ok (halfHigh s.cntLatch, s)
  | 6 => .ok (if s.pins.loadReady then 1 else 0, s)
  | n => .error (.timerSpaceRead n)

/-- `MemWrite(a, 1, b)` (R51, R65). Addresses that no operation writes are refused (R58). -/
def State.memWrite (s : State) (a : BitVec 3) (b : Byte) : Except Refusal State :=
  match a.toNat with
  | 3 => .ok { s with cmp := adoptedValue s.cmpHold b, armed := true,
                      history := s.history ++ [.adopt (adoptedValue s.cmpHold b)] }
  | 4 => .ok { s with cmpHold := setHalfLow s.cmpHold b }
  | 5 => .ok { s with cmpHold := setHalfHigh s.cmpHold b }
  | n => .error (.timerSpaceWrite n)

/-- A micro-step that reads one timer-side byte and goes on with it. -/
def State.readThen (s : State) (a : BitVec 3) (k : Byte → State → State) : Result :=
  match s.memRead a with
  | .ok (b, s') => .next (k b s')
  | .error r => .refused r

/-- A micro-step that writes one timer-side byte and goes on. -/
def State.writeThen (s : State) (a : BitVec 3) (b : Byte) (k : State → State) : Result :=
  match s.memWrite a b with
  | .ok s' => .next (k s')
  | .error r => .refused r

/-! ## The timer, the interrupt, reset -/

/-- The COUNTER step (R142): the counter advances, and a match on arrival sets `IRQ_PENDING` and clears `ARMED`. -/
def State.counterStep (s : State) : State :=
  if Matches s.armed (counterSucc s.rawCounter) s.cmp then
    { s with rawCounter := counterSucc s.rawCounter, irqPending := true, armed := false,
             history := s.history ++ [.matched] }
  else { s with rawCounter := counterSucc s.rawCounter }

/-- Interrupt entry (R144): "Nothing is saved and nothing else changes". -/
def State.interruptEntry (s : State) : State :=
  { s with iseq := .arm .a0, history := s.history ++ [.irqEntry] }

/-- Interrupt return (R145): "Nothing is restored, because nothing was saved". -/
def State.interruptReturn (s : State) : State :=
  { s with iseq := .idle, history := s.history ++ [.irqRet] }

/-- The RESET event (R170, R171): every element takes its reset value, the unspecified ones the contents `fill`, and
`RawCounter` is untouched. The history goes on (log 14), and the port is idle (log 7). -/
def State.takeReset (s : State) (fill : ResetFill) : State :=
  { s with
    tickCounter := 0
    phase := .uninitialized
    mseq := .idle
    iseq := .idle
    snap := fill.snap
    newcmp := fill.newcmp
    dlyStart := fill.dlyStart % 2 ^ s.config.tickW
    dlyTicks := fill.dlyTicks % 2 ^ s.config.tickW
    oscReq := false
    cntLatch := fill.cntLatch
    cmp := fill.cmp
    cmpHold := fill.cmpHold
    armed := false
    irqPending := false
    irqEnable := false
    history := s.history ++ [.reset]
    port := none }

/-! ## The micro-steps of the shared operations -/

/-- `SEQ <- P(a)`: the sequencer that runs goes to a step of `ARM_NEXT_COMPARE` (R92, R123). -/
def State.gotoArm (s : State) (a : ArmPos) : State :=
  if s.InIsr then { s with iseq := .arm a } else { s with mseq := .arm a }

/-- `SEQ <- NEXT` at the end of `ARM_NEXT_COMPARE`: `I_INC` for `TICK_ISR`, `M_EN` for `CLOCK_INIT` (R92, R123 (3)). -/
def State.leaveArm (s : State) : State :=
  if s.InIsr then { s with iseq := .inc } else { s with mseq := .en }

/-- Step S0 of `INIT_CLOCK_SOURCE`, part of the acceptance step of `CLOCK_INIT` (R90). -/
def State.requestOsc (s : State) : State := { s with oscReq := true, mseq := .osc }

/-- Step M_OSC of `INIT_CLOCK_SOURCE` (R90): one sample of `OSC_OK`; a 0 is a `wait`. -/
def State.pollOsc (s : State) : State := if s.pins.oscOk then { s with mseq := .arm .a0 } else s

/-- Step A4 of `ARM_NEXT_COMPARE` (R92): one sample of `LOAD_READY` through `TSTAT`; a 0 is a `wait`. -/
def State.pollLoadReady (s : State) : Result :=
  match s.memRead 6 with
  | .ok (b, s') => .next (if b.getLsbD 0 then s'.gotoArm .a5 else s)
  | .error r => .refused r

/-- One micro-step of `ARM_NEXT_COMPARE(TICK_INTERVAL)` (R92), its first three those of `READ_RAW_COUNTER` (R91). -/
def State.armMicroStep (s : State) : ArmPos → Result
  | .a0 => s.readThen 0 fun b s' => { s' with snap := setLowByte s'.snap b }.gotoArm .a1
  | .a1 => s.readThen 1 fun b s' => { s' with snap := setMidByte s'.snap b }.gotoArm .a2
  | .a2 => s.readThen 2 fun b s' => { s' with snap := setHighByte s'.snap b }.gotoArm .a3
  | .a3 => .next ({ s with newcmp := reloadValue s.snap (intervalWord s.config) }.gotoArm .a4)
  | .a4 => s.pollLoadReady
  | .a5 => s.writeThen 5 (highByte s.newcmp) fun s' => s'.gotoArm .a6
  | .a6 => s.writeThen 4 (midByte s.newcmp) fun s' => s'.gotoArm .a7
  | .a7 => s.writeThen 3 (lowByte s.newcmp) State.leaveArm

end Sys2Proof.Machine
end

