-- ==== Sys2Proof/Machine/TickService.lean ====
section
/-! DEFINITION. The Tick Counter and Delay Service (spec/41_tick_service.md): the meanings of `CLOCK_INIT`, `TICK_ISR`,
`CLOCK_TIME`, `CLOCK_SECONDS` and `CLOCK_DELAY`. A meaning is one micro-step of the operation, at the position where the
sequencer that runs it stands (R43; log 9). A command that cannot be accepted now waits: "nothing is accepted" while BUSY
or IN_ISR (R75; log 10). -/

namespace Sys2Proof.Machine

/-- Step M_EN of `CLOCK_INIT` (R111): the interrupt and the phase change in one micro-step (R22). -/
def initEnable (s : State) : State := { s with irqEnable := true, phase := .running }.respond 0x0 none

/-- `CLOCK_INIT` (R111): acceptance, `INIT_CLOCK_SOURCE`, `ARM_NEXT_COMPARE`, and M_EN. A second one is
refused (R125). -/
def execClockInit (s : State) : Result :=
  if s.InIsr then .next s
  else
    match s.mseq with
    | .idle =>
      match s.phase with
      | .uninitialized => .next s.requestOsc
      | .running => .refused .secondClockInit
    | .osc => .next s.pollOsc
    | .arm a => s.armMicroStep a
    | .en => .next (initEnable s)
    | .poll => .next s

/-- Step I_INC of `TICK_ISR` (R112). -/
def tickIncrement (s : State) : State := { s with tickCounter := tickSucc s.config s.tickCounter, iseq := .chk }

/-- Step I_CHK of `TICK_ISR` (R112, R114): `POLL_REQ` when a pending timer has expired. -/
def tickCheck (s : State) : State :=
  if s.pins.etPending = true ∧ Expired s.config s.pins.etNext s.tickCounter then { s.emit .pollReq with iseq := .clr }
  else { s with iseq := .clr }

/-- Step I_CLR of `TICK_ISR` (R112). -/
def tickClear (s : State) : State := { s with irqPending := false, iseq := .ret }

/-- `TICK_ISR` (R112): interrupt entry where it is enabled (R144), then the pass. -/
def execTickIsr (s : State) : Result :=
  match s.iseq with
  | .idle => if s.EntryEnabled then .next s.interruptEntry else .refused (.notInProgress 0x7)
  | .arm a => s.armMicroStep a
  | .inc => .next (tickIncrement s)
  | .chk => .next (tickCheck s)
  | .clr => .next (tickClear s)
  | .ret => .next s.interruptReturn

/-- `CLOCK_TIME` (R115): it completes in the accepting micro-step. -/
def execClockTime (s : State) : Result :=
  if s.CanAccept then
    match s.phase with
    | .running => .next (s.respond 0x1 (some s.tickCounter))
    | .uninitialized => .refused (.beforeClockInit 0x1)
  else .next s

/-- `CLOCK_SECONDS` (R116): it completes in the accepting micro-step. -/
def execClockSeconds (s : State) : Result :=
  if s.CanAccept then
    match s.phase with
    | .running => .next (s.respond 0x2 (some (secondsOf s.config s.tickCounter)))
    | .uninitialized => .refused (.beforeClockInit 0x2)
  else .next s

/-- Acceptance of `CLOCK_DELAY(ms)` (R117). -/
def delayStart (ms : Tick) (s : State) : State :=
  { s with dlyStart := s.tickCounter, dlyTicks := delayTicksOf s.config ms, mseq := .poll }

/-- Step M_POLL of `CLOCK_DELAY` (R117): complete when the elapsed count has reached `DLY_TICKS`, else `wait`. -/
def delayPoll (s : State) : State := if s.DelayDone then s.respond 0x3 none else s

/-- `CLOCK_DELAY(ms)` (R117): acceptance, then the polls at M_POLL, which no longer look at `ms`. -/
def execClockDelay (ms : Tick) (s : State) : Result :=
  if s.InIsr then .next s
  else
    match s.mseq with
    | .idle =>
      match s.phase with
      | .running => .next (delayStart ms s)
      | .uninitialized => .refused (.beforeClockInit 0x3)
    | .poll => .next (delayPoll s)
    | .osc => .next s
    | .arm _ => .next s
    | .en => .next s

end Sys2Proof.Machine
end

