-- ==== Sys2Proof/Machine/TimerDriver.lean ====
section
/-! DEFINITION. The Hardware Timer Driver (spec/40_timer_driver.md): the meanings of `INIT_CLOCK_SOURCE`,
`READ_RAW_COUNTER` and `ARM_NEXT_COMPARE`. A meaning is one micro-step of the operation, at the position where the
sequencer that runs it stands (R43; log 9). Where no sequencer has started the operation, it is refused (R73; log 11). -/

namespace Sys2Proof.Machine

/-- `INIT_CLOCK_SOURCE` (R90): S0 where `CLOCK_INIT` starts it (log 21), then the polls at M_OSC. -/
def execInitClockSource (s : State) : Result :=
  if s.InIsr then .refused (.notInProgress 0x4)
  else
    match s.mseq, s.phase with
    | .idle, .uninitialized => .next s.requestOsc
    | .osc, _ => .next s.pollOsc
    | _, _ => .refused (.notInProgress 0x4)

/-- `READ_RAW_COUNTER` (R91): the steps A0 to A2. -/
def execReadRawCounter (s : State) : Result :=
  match s.armPos with
  | some .a0 => s.armMicroStep .a0
  | some .a1 => s.armMicroStep .a1
  | some .a2 => s.armMicroStep .a2
  | _ => .refused (.notInProgress 0x5)

/-- `ARM_NEXT_COMPARE` (R92): the steps A0 to A7. -/
def execArmNextCompare (s : State) : Result :=
  match s.armPos with
  | some a => s.armMicroStep a
  | none => .refused (.notInProgress 0x6)

end Sys2Proof.Machine
end

