-- ==== Sys2Proof/Machine/Dispatch.lean ====
section
/-! DEFINITION. One arm per operation of spec/30_encoding.md R71, each a call of its meaning. -/

namespace Sys2Proof.Machine

/-- One micro-step of the operation `i` (R43). -/
def exec (i : Instr) (s : State) : Host.Outcome State Fault Refusal :=
  match i with
  | .clockInit => Sys2Proof.Machine.execClockInit s
  | .clockTime => Sys2Proof.Machine.execClockTime s
  | .clockSeconds => Sys2Proof.Machine.execClockSeconds s
  | .clockDelay ms => Sys2Proof.Machine.execClockDelay ms s
  | .initClockSource => Sys2Proof.Machine.execInitClockSource s
  | .readRawCounter => Sys2Proof.Machine.execReadRawCounter s
  | .armNextCompare => Sys2Proof.Machine.execArmNextCompare s
  | .tickIsr => Sys2Proof.Machine.execTickIsr s

end Sys2Proof.Machine
end

