-- ==== Sys2Proof/Machine/Agents.lean ====
section
/-! DEFINITION. The agents of spec/10_state.md R42 and their turns (R43, R44): where each fetches its operation from, and
what a turn does. -/

namespace Sys2Proof.Machine

/-- The operation whose micro-step a position of `ARM_NEXT_COMPARE` is: its first three are those of
`READ_RAW_COUNTER` (R91; log 9). -/
def ArmPos.operation : ArmPos → Instr
  | .a0 => .readRawCounter
  | .a1 => .readRawCounter
  | .a2 => .readRawCounter
  | .a3 => .armNextCompare
  | .a4 => .armNextCompare
  | .a5 => .armNextCompare
  | .a6 => .armNextCompare
  | .a7 => .armNextCompare

/-- The operation in progress on the mainline sequencer (R31). At M_POLL the operand is spent, and 0 stands for it
(log 16). -/
def MSeq.operation : MSeq → Option Instr
  | .idle => none
  | .osc => some .initClockSource
  | .arm a => some a.operation
  | .en => some .clockInit
  | .poll => some (.clockDelay 0)

/-- The operation in progress on the interrupt sequencer, or that interrupt entry starts (R30, R144). -/
def ISeq.operation : ISeq → Instr
  | .arm a => a.operation
  | .idle => .tickIsr
  | .inc => .tickIsr
  | .chk => .tickIsr
  | .clr => .tickIsr
  | .ret => .tickIsr

/-- The refusal of a word that the command port's decoder rejects (R74). -/
def refusalOfDecode : DecodeError → Refusal
  | .notACommandWord => .notACommandWord
  | .internalCode n => .internalCodeOnPort n
  | .reservedCode n => .reservedCode n

/-- Acceptance of the presented word (R75). A refusal ends the run (log 12). -/
def acceptCommand (s : State) (cw : Nat) : Result :=
  match decodeCommand s.config cw with
  | .ok i => exec i (s.accept cw)
  | .error e => .refused (refusalOfDecode e)

/-- A micro-step of MAINLINE (R42): the operation in progress, else acceptance. It is frozen while IN_ISR (R44), and with
no word presented it has no step (log 6). -/
def mainlineStep (s : State) : Result :=
  if s.InIsr then .next s
  else
    match s.mseq.operation with
    | some i => exec i s
    | none =>
      match s.port with
      | some cw => acceptCommand s cw
      | none => .next s

/-- A micro-step of ISR (R42): entry where it is enabled, or the pass in progress. Without either it has no
step (log 6). -/
def isrStep (s : State) : Result :=
  if s.InIsr ∨ s.EntryEnabled then exec s.iseq.operation s else .next s

/-- What a turn does (R43, R170). Nothing else writes the timer's registers (R158; log 24). -/
def runTurn (t : Turn) (s : State) : Result :=
  match t with
  | .counter => .next s.counterStep
  | .mainline offer pins => mainlineStep ((s.latchPins pins).present offer)
  | .isr pins => isrStep (s.latchPins pins)
  | .reset fill => .next (s.takeReset fill)

/-- The inputs that let a waiting micro-step go on. -/
def readyPins : Pins := ⟨true, true, false, 0⟩

/-- The state in which the next step runs an internal operation of the table (R73; log 15): the sequencer that starts
the operation stands at a micro-step of it, or interrupt entry is enabled, and it is that agent's turn. -/
def State.startOperation (s : State) : Instr → State
  | .initClockSource => { s with mseq := .osc, iseq := .idle, turns := .mainline none readyPins :: s.turns }
  | .readRawCounter => { s with mseq := .arm .a0, iseq := .idle, turns := .mainline none readyPins :: s.turns }
  | .armNextCompare => { s with mseq := .arm .a3, iseq := .idle, turns := .mainline none readyPins :: s.turns }
  | _ => { s with irqPending := true, irqEnable := true, iseq := .idle, turns := .isr readyPins :: s.turns }

/-- The state in which the next step accepts the word `cw` and starts `i` (R75; log 15): the word is on the port, the
port can accept, the phase is the one in which acceptance starts `i`, and it is MAINLINE's turn. -/
def State.presentNext (s : State) (cw : Nat) (i : Instr) : State :=
  { s with
    port := some cw
    mseq := .idle
    iseq := .idle
    phase := if i = .clockInit then .uninitialized else .running
    turns := .mainline none readyPins :: s.turns }

/-- `s` set so that the next step runs the operation of the table's word (log 15). -/
def State.fetchNext (s : State) (nbits w : Nat) : State :=
  match decodeOperation (w % 2 ^ nbits % 16) 0 with
  | .ok i => if i.isCommand then s.presentNext (s.config.wordOfTable nbits w) i else s.startOperation i
  | .error _ => s.presentNext (s.config.wordOfTable nbits w) .clockInit

end Sys2Proof.Machine
end

