-- ==== Sys2Proof/Machine/Step.lean ====
section
/-! DEFINITION. The step: one turn of one agent (spec/10_state.md R43). -/

namespace Sys2Proof.Machine

/-- One micro-step of the agent whose turn it is. Parameters that are "not a configuration of this hardware" have no
step (U14; log 17). -/
def step (s : State) : Host.Outcome State Fault Refusal :=
  if s.config.Legal then runTurn s.takeTurn.1 s.takeTurn.2 else .refused .illegalConfiguration

/-- `s` with the table's word `w` where the next step fetches its operation (log 15). -/
def State.withFetchWord (s : State) (nbits w : Nat) : State := s.fetchNext nbits w

end Sys2Proof.Machine
end

