-- ==== Sys2Proof/Safety.lean ====
section
/-! DEFINITION. What counts as a safe run of the clock CORE, in the terms the claims use: the invariants of the state,
the passes a history shows, the dead timer of spec/70_reset_and_hazards.md R174, and the states that no behaviour tells
apart (R171). -/

namespace Sys2Proof.Machine

/-- Every value of `TICK_W` bits and the presented word fit their width (R9, R70). -/
abbrev State.InRange (s : State) : Prop :=
  s.tickCounter < 2 ^ s.config.tickW ∧ s.dlyStart < 2 ^ s.config.tickW ∧ s.dlyTicks < 2 ^ s.config.tickW ∧
    s.pins.etNext < 2 ^ s.config.tickW ∧ s.port.all (fun cw => decide (cw < 2 ^ (s.config.tickW + 4))) = true

/-- The interrupt can fire exactly when PHASE is Running, CLOCK_INIT runs only before that and with the oscillator
requested, and a pass and CLOCK_DELAY only after it (R22, R29, R32, R110, R111). -/
abbrev State.Coherent (s : State) : Prop :=
  (s.irqEnable = true ↔ s.phase = .running) ∧
    (s.phase = .uninitialized → s.iseq = .idle ∧ s.mseq ≠ .poll) ∧
    (s.phase = .running → s.mseq = .idle ∨ s.mseq = .poll) ∧
    (s.phase = .running ∨ s.mseq ≠ .idle → s.oscReq = true)

/-- The one-shot comparator (R27, R142) over a pass: it starts from a match, with the comparator disarmed; the flag stays
set until I_CLR; outside it a state is armed or pending, never both; before the first adoption it is neither. -/
abbrev State.OneShot (s : State) : Prop :=
  match s.iseq with
  | .arm _ => s.irqPending = true ∧ s.armed = false
  | .inc => s.irqPending = true
  | .chk => s.irqPending = true
  | .clr => s.irqPending = true
  | .ret => ¬(s.irqPending = true ∧ s.armed = true)
  | .idle =>
    match s.phase, s.mseq with
    | .uninitialized, .en => s.irqPending ≠ s.armed
    | .uninitialized, _ => s.irqPending = false ∧ s.armed = false
    | .running, _ => ¬(s.irqPending = true ∧ s.armed = true)

/-- The reload in progress and its result (R92, R95): `NEWCMP` is `SNAP +_24 TICK_INTERVAL` from A4 on, the holding latch
has the bytes written so far, and after A7 `CMP` is that value. -/
abbrev State.ReloadKept (s : State) : Prop :=
  match s.armPos with
  | some .a4 => s.newcmp = s.snap + intervalWord s.config
  | some .a5 => s.newcmp = s.snap + intervalWord s.config
  | some .a6 => s.newcmp = s.snap + intervalWord s.config ∧ halfHigh s.cmpHold = highByte s.newcmp
  | some .a7 => s.newcmp = s.snap + intervalWord s.config ∧ s.cmpHold = upperHalf s.newcmp
  | some _ => True
  | none => s.phase = .running ∨ s.mseq = .en → s.cmp = s.snap + intervalWord s.config

/-- The passes, `IRQ_ENTRY` events, in a history after its last event that `stop` picks (R121). -/
def passesSince (stop : Event → Bool) (h : List Event) : Nat :=
  (h.reverse.takeWhile (fun e => !stop e)).countP (fun e => decide (e = .irqEntry))

/-- The mark of a RESET event. -/
def isReset : Event → Bool
  | .reset => true
  | _ => false

/-- The acceptance of a command. -/
def isCommand : Event → Bool
  | .cmd _ _ => true
  | _ => false

/-- 1 while the pass in progress has not reached its increment, else 0. -/
def State.uncounted (s : State) : Nat :=
  match s.iseq with
  | .arm _ => 1
  | .inc => 1
  | .idle => 0
  | .chk => 0
  | .clr => 0
  | .ret => 0

/-- `TickCounter` is the number of passes since reset that have completed their I_INC, modulo `2^W` (R121). -/
abbrev State.TickExact (s : State) : Prop :=
  addMod s.config.tickW s.tickCounter s.uncounted = passesSince isReset s.history % 2 ^ s.config.tickW

/-- While CLOCK_DELAY polls, the elapsed count is the number of passes since its acceptance that have completed their
I_INC, modulo `2^W` (R127). -/
abbrev State.DelayExact (s : State) : Prop :=
  s.mseq = .poll →
    subMod s.config.tickW (s.tickCounter + s.uncounted) s.dlyStart =
      passesSince isCommand s.history % 2 ^ s.config.tickW

/-- The dead timer of hazard HZ1 (R174): running, idle, disarmed, nothing pending. -/
abbrev State.TimerDead (s : State) : Prop :=
  s.phase = .running ∧ (s.mseq = .idle ∨ s.mseq = .poll) ∧ s.iseq = .idle ∧ s.armed = false ∧ s.irqPending = false

/-- The machine is at rest (R46). -/
abbrev State.AtRest (s : State) : Prop := s.mseq = .idle ∧ s.iseq = .idle ∧ s.port = none

/-- The turn that the next step takes. -/
def State.nextTurn (s : State) : Turn := s.takeTurn.1

/-- A word that has a meaning in a phase (R75). -/
def Meaningful (c : Config) (p : Phase) (cw : Nat) : Prop :=
  match decodeCommand c cw with
  | .ok i => if i = .clockInit then p = .uninitialized else p = .running
  | .error _ => False

/-- The word on the port once the requester's offer is in (R75). -/
def State.offered (s : State) (offer : Option Nat) : Option Nat := (s.present offer).port

/-- The turn asks for nothing without a meaning: a word accepted in it has a meaning in the phase (R158). -/
def State.RequestHonoured (s : State) (t : Turn) : Prop :=
  match t with
  | .mainline offer _ => s.CanAccept → ∀ cw, s.offered offer = some cw → Meaningful s.config s.phase cw
  | .counter => True
  | .isr _ => True
  | .reset _ => True

/-- The reload of `ARM_NEXT_COMPARE` with COUNTER steps in between: before each micro-step of the operation, as many
COUNTER steps as the list says (R43, R95). -/
def interleavedReload : List Nat → State → Result
  | [], s => .next s
  | k :: ks, s =>
    match exec .armNextCompare (State.counterStep^[k] s) with
    | .next t => interleavedReload ks t
    | .fault r => .fault r
    | .refused r => .refused r

/-- Two runs that may go on differently only in what no rule reads (R171): they end in the same history, tick count and
phase, or in the same refusal. -/
def SameBehaviour (a b : Result) : Prop :=
  match a, b with
  | .next s, .next t =>
    s.history = t.history ∧ s.tickCounter = t.tickCounter ∧ s.phase = t.phase ∧ s.mseq = t.mseq ∧ s.iseq = t.iseq ∧
      s.irqPending = t.irqPending ∧ s.armed = t.armed ∧ s.rawCounter = t.rawCounter ∧ s.oscReq = t.oscReq ∧
      s.irqEnable = t.irqEnable ∧ s.port = t.port
  | .refused r, .refused q => r = q
  | _, _ => False

end Sys2Proof.Machine
end

