-- ==== Sys2Proof/Certificates/Slice0/Obligations.lean ====
section
/-! DEFINITION. The statements for the provers, from the numbered rules of spec/. Each docstring says which rule a
statement formalises, or that it rests on a choice of the model's (with the log entry). -/

open Sys2Proof Sys2Proof.Machine

/-! ## Encoding (spec/30_encoding.md) -/

/-- R70, R71, R72, R80: the word of every well-formed operation decodes to it, and the port takes exactly those of
format C. -/
def Obligations.DecodeInvertsEncode : Prop :=
  ∀ (c : Config) (i : Instr), i.wellFormed c = true →
    decodeOperation (c.cmdOp (encode c i)) (c.cmdArg (encode c i)) = .ok i ∧
      decodeCommand c (encode c i) = if i.isCommand then .ok i else .error (.internalCode i.code)

/-- R80 (with R70, R71, R72): the sixteen codes split into four legal, four internal and eight reserved ones, and only
`CLOCK_DELAY` looks at the operand. -/
def Obligations.PortDecodesEveryWord : Prop :=
  ∀ (c : Config) (op arg : Nat), op < 16 → arg < 2 ^ c.tickW →
    decodeCommand c (op * 2 ^ c.tickW + arg) =
      if op = 0 then .ok .clockInit
      else if op = 1 then .ok .clockTime
      else if op = 2 then .ok .clockSeconds
      else if op = 3 then .ok (.clockDelay arg)
      else if op < 8 then .error (.internalCode op)
      else .error (.reservedCode op)

/-- R81: the canonical command words, for `TICK_W = 16` and `TICK_W = 32`, read and written. -/
def Obligations.CanonicalWordsDecode : Prop :=
  ∀ tps hz : Nat,
    (∀ p ∈ [(0x00000, Instr.clockInit), (0x10000, .clockTime), (0x20000, .clockSeconds), (0x303E8, .clockDelay 1000),
        (0x30000, .clockDelay 0), (0x3FFFF, .clockDelay 65535)],
      decodeCommand ⟨16, tps, hz⟩ p.1 = .ok p.2 ∧ encode ⟨16, tps, hz⟩ p.2 = p.1) ∧
    (∀ p ∈ [(0x000000000, Instr.clockInit), (0x100000000, .clockTime), (0x200000000, .clockSeconds),
        (0x3000003E8, .clockDelay 1000)],
      decodeCommand ⟨32, tps, hz⟩ p.1 = .ok p.2 ∧ encode ⟨32, tps, hz⟩ p.2 = p.1)

/-! ## The step -/

/-- R75, R80: on MAINLINE's turn, with both sequencers idle and a word on the port that decodes to `i`, the step emits
`CMD(op, arg)`, takes the word off the port and runs `exec i`. Around it the model latches the turn's inputs (log 5). -/
def Obligations.StepRunsTheAcceptedCommand : Prop :=
  ∀ (s : State) (offer : Option Nat) (pins : Pins) (cw : Nat) (i : Instr),
    s.config.Legal → s.nextTurn = .mainline offer pins → s.CanAccept → s.offered offer = some cw →
    decodeCommand s.config cw = .ok i →
    let s₀ := (s.takeTurn.2.latchPins pins).present offer
    step s = exec i
      { s₀ with port := none, history := s₀.history ++ [.cmd (cw / 2 ^ s.config.tickW % 16) (cw % 2 ^ s.config.tickW)] }

/-- R31, R91, R92: on MAINLINE's turn, outside the interrupt context, the step runs the operation in progress on the
mainline sequencer. At M_POLL the operand is spent (log 16). At M_IDLE with no word on the port nothing happens (log 6). R75:
while BUSY a presented word stays presented, and an empty port takes the offer (log 7, log 8). -/
def Obligations.StepRunsTheMainlineOperation : Prop :=
  ∀ (s : State) (offer : Option Nat) (pins : Pins),
    s.config.Legal → s.nextTurn = .mainline offer pins → s.iseq = .idle →
    let s₀ := (s.takeTurn.2.latchPins pins).present offer
    (s.mseq = .osc → step s = exec .initClockSource s₀) ∧
    (s.mseq = .arm .a0 ∨ s.mseq = .arm .a1 ∨ s.mseq = .arm .a2 → step s = exec .readRawCounter s₀) ∧
    (s.mseq = .arm .a3 ∨ s.mseq = .arm .a4 ∨ s.mseq = .arm .a5 ∨ s.mseq = .arm .a6 ∨ s.mseq = .arm .a7 →
      step s = exec .armNextCompare s₀) ∧
    (s.mseq = .en → step s = exec .clockInit s₀) ∧
    (s.mseq = .poll → step s = exec (.clockDelay 0) s₀) ∧
    (s.mseq = .idle → s.offered offer = none → step s = .next s₀) ∧
    (s.mseq ≠ .idle → ∃ t, step s = .next t ∧ (∀ cw, s.port = some cw → t.port = some cw) ∧
      (s.port = none → t.port = offer.map (· % 2 ^ (s.config.tickW + 4))))

/-- R30, R91, R92, R144: on ISR's turn the step runs the operation in progress on the interrupt sequencer, or `TICK_ISR`
where entry is enabled; where it is not, nothing happens (log 6). What is on the port stays (R75). -/
def Obligations.StepRunsTheInterruptOperation : Prop :=
  ∀ (s : State) (pins : Pins), s.config.Legal → s.nextTurn = .isr pins →
    let s₀ := s.takeTurn.2.latchPins pins
    (s.iseq = .arm .a0 ∨ s.iseq = .arm .a1 ∨ s.iseq = .arm .a2 → step s = exec .readRawCounter s₀) ∧
    (s.iseq = .arm .a3 ∨ s.iseq = .arm .a4 ∨ s.iseq = .arm .a5 ∨ s.iseq = .arm .a6 ∨ s.iseq = .arm .a7 →
      step s = exec .armNextCompare s₀) ∧
    (s.iseq = .inc ∨ s.iseq = .chk ∨ s.iseq = .clr ∨ s.iseq = .ret → step s = exec .tickIsr s₀) ∧
    (s.iseq = .idle → step s = if s.irqPending = true ∧ s.irqEnable = true then exec .tickIsr s₀ else .next s₀) ∧
    (∃ t, step s = .next t ∧ t.port = s.port)

/-- R43, R75, R141: in a legal configuration every step has a next state unless it accepts a word that has no meaning in
the phase: no wait, no position of a sequencer and no interrupt ever stops the machine. -/
def Obligations.OnlyMeaninglessRequestsStop : Prop :=
  ∀ s : State, s.config.Legal → s.RequestHonoured s.nextTurn → ∃ t, step s = .next t

/-- R74: a word with a code from 0x4 upwards is refused when it would be accepted, and by name. -/
def Obligations.PortRefusesOtherCodes : Prop :=
  ∀ (s : State) (offer : Option Nat) (pins : Pins) (cw : Nat),
    s.config.Legal → s.nextTurn = .mainline offer pins → s.CanAccept → s.offered offer = some cw →
    cw < 2 ^ (s.config.tickW + 4) →
    (4 ≤ cw / 2 ^ s.config.tickW → cw / 2 ^ s.config.tickW < 8 →
      step s = .refused (.internalCodeOnPort (cw / 2 ^ s.config.tickW))) ∧
    (8 ≤ cw / 2 ^ s.config.tickW → step s = .refused (.reservedCode (cw / 2 ^ s.config.tickW)))

/-- R124: `CLOCK_TIME`, `CLOCK_SECONDS` and `CLOCK_DELAY` presented while PHASE is Uninitialized are refused. -/
def Obligations.RefusedBeforeClockInit : Prop :=
  ∀ (s : State) (offer : Option Nat) (pins : Pins) (cw : Nat),
    s.config.Legal → s.nextTurn = .mainline offer pins → s.CanAccept → s.offered offer = some cw →
    s.phase = .uninitialized → cw < 2 ^ (s.config.tickW + 4) →
    1 ≤ cw / 2 ^ s.config.tickW → cw / 2 ^ s.config.tickW ≤ 3 →
    step s = .refused (.beforeClockInit (cw / 2 ^ s.config.tickW))

/-- R125: `CLOCK_INIT` presented while PHASE is Running is refused. -/
def Obligations.SecondClockInitRefused : Prop :=
  ∀ (s : State) (offer : Option Nat) (pins : Pins) (cw : Nat),
    s.config.Legal → s.nextTurn = .mainline offer pins → s.CanAccept → s.offered offer = some cw →
    s.phase = .running → cw < 2 ^ s.config.tickW → step s = .refused .secondClockInit

/-- R75: a word that cannot be accepted now stays presented: a command that finds the port closed changes nothing
(log 10). -/
def Obligations.CommandsWaitForTheirTurn : Prop :=
  ∀ (s : State) (ms : Nat),
    (¬s.CanAccept → exec .clockTime s = .next s ∧ exec .clockSeconds s = .next s) ∧
    (s.InIsr → exec .clockInit s = .next s ∧ exec (.clockDelay ms) s = .next s) ∧
    (s.iseq = .idle → s.mseq = .poll → exec .clockInit s = .next s) ∧
    (s.iseq = .idle → s.mseq = .osc ∨ s.mseq = .en ∨ (∃ a, s.mseq = .arm a) → exec (.clockDelay ms) s = .next s)

/-- R124, R125, R73: where a meaning stops, and by which name: the commands in the wrong phase, and (log 11) an internal
operation that no sequencer has started. -/
def Obligations.MeaningsStopByName : Prop :=
  ∀ (s : State) (ms : Nat),
    (s.CanAccept → s.phase = .uninitialized →
      exec .clockTime s = .refused (.beforeClockInit 0x1) ∧ exec .clockSeconds s = .refused (.beforeClockInit 0x2) ∧
      exec (.clockDelay ms) s = .refused (.beforeClockInit 0x3)) ∧
    (s.CanAccept → s.phase = .running → exec .clockInit s = .refused .secondClockInit) ∧
    (s.iseq ≠ .idle ∨ s.mseq ≠ .idle ∧ s.mseq ≠ .osc ∨ s.mseq = .idle ∧ s.phase = .running →
      exec .initClockSource s = .refused (.notInProgress 0x4)) ∧
    (s.armPos ≠ some .a0 → s.armPos ≠ some .a1 → s.armPos ≠ some .a2 →
      exec .readRawCounter s = .refused (.notInProgress 0x5)) ∧
    (s.armPos = none → exec .armNextCompare s = .refused (.notInProgress 0x6))

/-! ## The Hardware Timer Driver (spec/40_timer_driver.md) -/

/-- R90: S0, started by `CLOCK_INIT` in the phase Uninitialized (log 21), and a poll of `OSC_OK`, which advances on a 1
and waits on a 0. -/
def Obligations.InitClockSourceSteps : Prop :=
  ∀ s : State, s.iseq = .idle →
    (s.mseq = .idle → s.phase = .uninitialized →
      exec .initClockSource s = .next { s with oscReq := true, mseq := .osc }) ∧
    (s.mseq = .osc → s.pins.oscOk = true → exec .initClockSource s = .next { s with mseq := .arm .a0 }) ∧
    (s.mseq = .osc → s.pins.oscOk = false → exec .initClockSource s = .next s)

/-- R91: the three micro-steps of `READ_RAW_COUNTER`, on either sequencer; they change nothing else. -/
def Obligations.ReadRawCounterSteps : Prop :=
  ∀ s : State,
    let s₀ := { s with snap := ofBytes (highByte s.snap) (midByte s.snap) (lowByte s.rawCounter),
                       cntLatch := upperHalf s.rawCounter }
    let s₁ := { s with snap := ofBytes (highByte s.snap) (halfLow s.cntLatch) (lowByte s.snap) }
    let s₂ := { s with snap := ofBytes (halfHigh s.cntLatch) (midByte s.snap) (lowByte s.snap) }
    (s.iseq = .idle → s.mseq = .arm .a0 → exec .readRawCounter s = .next { s₀ with mseq := .arm .a1 }) ∧
    (s.iseq = .idle → s.mseq = .arm .a1 → exec .readRawCounter s = .next { s₁ with mseq := .arm .a2 }) ∧
    (s.iseq = .idle → s.mseq = .arm .a2 → exec .readRawCounter s = .next { s₂ with mseq := .arm .a3 }) ∧
    (s.iseq = .arm .a0 → exec .readRawCounter s = .next { s₀ with iseq := .arm .a1 }) ∧
    (s.iseq = .arm .a1 → exec .readRawCounter s = .next { s₁ with iseq := .arm .a2 }) ∧
    (s.iseq = .arm .a2 → exec .readRawCounter s = .next { s₂ with iseq := .arm .a3 })

/-- R91, R53: the three reads give `RawCounter` as it was at A0, for any number of COUNTER steps between them, and change
no timer register but the latch. -/
def Obligations.SnapshotIsTheCounterAtTheFirstRead : Prop :=
  ∀ (s : State) (j k : Nat), s.armPos = some .a0 →
    ∃ t₁ t₂ t₃ : State,
      exec .readRawCounter s = .next t₁ ∧
      exec .readRawCounter (State.counterStep^[j] t₁) = .next t₂ ∧
      exec .readRawCounter (State.counterStep^[k] t₂) = .next t₃ ∧
      t₃.snap = s.rawCounter ∧ t₃.armPos = some .a3 ∧
      t₃.cmp = s.cmp ∧ t₃.cmpHold = s.cmpHold ∧ t₃.newcmp = s.newcmp ∧ t₃.tickCounter = s.tickCounter ∧
      t₃.rawCounter = s.rawCounter + BitVec.ofNat 24 (j + k)

/-- R92, R93, R94: the micro-steps A3 to A7 of `ARM_NEXT_COMPARE(TICK_INTERVAL)` on the mainline sequencer, whose
successor is M_EN; they change nothing else. At A4 a `LOAD_READY` of 0 waits. -/
def Obligations.ArmNextCompareStepsInClockInit : Prop :=
  ∀ s : State, s.iseq = .idle →
    (s.mseq = .arm .a3 → exec .armNextCompare s =
      .next { s with newcmp := s.snap + BitVec.ofNat 24 s.config.tickInterval, mseq := .arm .a4 }) ∧
    (s.mseq = .arm .a4 → s.pins.loadReady = true → exec .armNextCompare s = .next { s with mseq := .arm .a5 }) ∧
    (s.mseq = .arm .a4 → s.pins.loadReady = false → exec .armNextCompare s = .next s) ∧
    (s.mseq = .arm .a5 → exec .armNextCompare s =
      .next { s with cmpHold := highByte s.newcmp ++ halfLow s.cmpHold, mseq := .arm .a6 }) ∧
    (s.mseq = .arm .a6 → exec .armNextCompare s =
      .next { s with cmpHold := halfHigh s.cmpHold ++ midByte s.newcmp, mseq := .arm .a7 }) ∧
    (s.mseq = .arm .a7 → exec .armNextCompare s =
      .next { s with cmp := s.cmpHold ++ lowByte s.newcmp, armed := true, mseq := .en,
                     history := s.history ++ [.adopt (s.cmpHold ++ lowByte s.newcmp)] })

/-- R92, R93, R94: the same on the interrupt sequencer, whose successor is I_INC. -/
def Obligations.ArmNextCompareStepsInTickIsr : Prop :=
  ∀ s : State,
    (s.iseq = .arm .a3 → exec .armNextCompare s =
      .next { s with newcmp := s.snap + BitVec.ofNat 24 s.config.tickInterval, iseq := .arm .a4 }) ∧
    (s.iseq = .arm .a4 → s.pins.loadReady = true → exec .armNextCompare s = .next { s with iseq := .arm .a5 }) ∧
    (s.iseq = .arm .a4 → s.pins.loadReady = false → exec .armNextCompare s = .next s) ∧
    (s.iseq = .arm .a5 → exec .armNextCompare s =
      .next { s with cmpHold := highByte s.newcmp ++ halfLow s.cmpHold, iseq := .arm .a6 }) ∧
    (s.iseq = .arm .a6 → exec .armNextCompare s =
      .next { s with cmpHold := halfHigh s.cmpHold ++ midByte s.newcmp, iseq := .arm .a7 }) ∧
    (s.iseq = .arm .a7 → exec .armNextCompare s =
      .next { s with cmp := s.cmpHold ++ lowByte s.newcmp, armed := true, iseq := .inc,
                     history := s.history ++ [.adopt (s.cmpHold ++ lowByte s.newcmp)] })

/-- R93: `new_compare = (snapshot + interval) mod 2^24` on the exact sum, which is at most `2^25 - 2`; the carry is
dropped, nothing records it, and the result is always in `0 .. 0xFFFFFF`. -/
def Obligations.ReloadArithmeticIsModular : Prop :=
  ∀ s : State, s.armPos = some .a3 → s.config.Legal →
    s.snap.toNat + s.config.tickInterval ≤ 2 ^ 25 - 2 ∧
      ∃ t, exec .armNextCompare s = .next t ∧
        t.newcmp.toNat = (s.snap.toNat + s.config.tickInterval) % 2 ^ 24 ∧ t.newcmp.toNat ≤ 0xFFFFFF ∧
        t = { s with newcmp := t.newcmp, mseq := t.mseq, iseq := t.iseq }

/-- R92, R95, R175: a whole reload, with any number of COUNTER steps before each of its micro-steps and `LOAD_READY` set,
adopts the counter as it was at A0 plus the interval, leaves the comparator armed, and the next match is then
`TICK_INTERVAL - k` steps away when `k < TICK_INTERVAL` steps fell between A0 and A7, else
`2^24 - ((k - TICK_INTERVAL) mod 2^24)`: the late reload. -/
def Obligations.InterleavedReloadAdoptsTheSnapshotPlusInterval : Prop :=
  ∀ (s : State) (k₀ : Nat) (ks : List Nat),
    s.config.Legal → s.armPos = some .a0 → s.pins.loadReady = true → ks.length = 7 →
    ∃ t : State, interleavedReload (k₀ :: ks) s = .next t ∧
      t.snap = s.rawCounter + BitVec.ofNat 24 k₀ ∧
      t.cmp = t.snap + BitVec.ofNat 24 s.config.tickInterval ∧ t.newcmp = t.cmp ∧ t.armed = true ∧
      t.rawCounter = t.snap + BitVec.ofNat 24 ks.sum ∧
      distanceToMatch t.cmp t.rawCounter =
        (if ks.sum < s.config.tickInterval then s.config.tickInterval - ks.sum
         else 2 ^ 24 - (ks.sum - s.config.tickInterval) % 2 ^ 24) ∧
      t.tickCounter = s.tickCounter ∧ t.irqEnable = s.irqEnable ∧ t.phase = s.phase ∧
      (s.iseq = .idle → t.mseq = .en ∧ t.iseq = .idle) ∧ (s.iseq ≠ .idle → t.iseq = .inc ∧ t.mseq = s.mseq)

/-! ## The Tick Counter and Delay Service (spec/41_tick_service.md) -/

/-- R111: acceptance of `CLOCK_INIT` and its last micro-step, which sets `IRQ_ENABLE` and `PHASE` together (R22). -/
def Obligations.ClockInitSteps : Prop :=
  ∀ s : State, s.iseq = .idle →
    (s.mseq = .idle → s.phase = .uninitialized →
      exec .clockInit s = .next { s with oscReq := true, mseq := .osc }) ∧
    (s.mseq = .en → exec .clockInit s =
      .next { s with irqEnable := true, phase := .running, mseq := .idle, history := s.history ++ [.rsp 0x0 none] })

/-- R111, R92, R173: on eleven MAINLINE turns whose samples are 1, `CLOCK_INIT` runs from its acceptance to its `RSP`, in
its fixed order, and leaves exactly what the rule lists. -/
def Obligations.ClockInitRunsToItsResponse : Prop :=
  ∀ (s : State) (cw : Nat) (p : Pins) (ts : List Turn),
    s.config.Legal → s.CanAccept → s.phase = .uninitialized → s.port = some cw → cw < 2 ^ s.config.tickW →
    p.oscOk = true → p.loadReady = true → s.turns = List.replicate 11 (.mainline none p) ++ ts →
    let v := s.rawCounter + BitVec.ofNat 24 s.config.tickInterval
    Host.Core.run core 11 s =
      .next { s with
        turns := ts, pins := { p with etNext := p.etNext % 2 ^ s.config.tickW }, port := none,
        oscReq := true, snap := s.rawCounter, newcmp := v, cntLatch := upperHalf s.rawCounter, cmpHold := upperHalf v,
        cmp := v, armed := true, irqEnable := true, phase := .running,
        history := s.history ++ [.cmd 0x0 cw, .adopt v, .rsp 0x0 none] }

/-- R144: interrupt entry is enabled exactly when `IRQ_PENDING = 1`, `IRQ_ENABLE = 1` and `ISEQ = I_IDLE`; nothing is saved
and nothing else changes. Where it is not enabled, exec has no meaning for it (log 11). -/
def Obligations.InterruptEntryChangesOnlyIseq : Prop :=
  ∀ s : State, s.iseq = .idle →
    exec .tickIsr s =
      if s.irqPending = true ∧ s.irqEnable = true
      then .next { s with iseq := .arm .a0, history := s.history ++ [.irqEntry] }
      else .refused (.notInProgress 0x7)

/-- R112, R114: the micro-steps I_INC, I_CHK and I_CLR of a pass; each changes only what it names. I_CHK emits `POLL_REQ`
exactly when a timer is pending and `(TickCounter -_W ET_NEXT) < 2^(W-1)` (the half range: log 22). -/
def Obligations.TickIsrSteps : Prop :=
  ∀ s : State,
    (s.iseq = .inc → exec .tickIsr s =
      .next { s with tickCounter := (s.tickCounter + 1) % 2 ^ s.config.tickW, iseq := .chk }) ∧
    (s.iseq = .chk → exec .tickIsr s =
      .next { s with
        iseq := .clr,
        history := s.history ++
          if s.pins.etPending = true ∧ subMod s.config.tickW s.tickCounter s.pins.etNext < 2 ^ (s.config.tickW - 1)
          then [.pollReq] else [] }) ∧
    (s.iseq = .clr → exec .tickIsr s = .next { s with irqPending := false, iseq := .ret })

/-- R145: interrupt return restores nothing and changes no enable; with a match pending, the entry condition holds again at
once, and MAINLINE goes on from the position at which it was frozen. -/
def Obligations.InterruptReturnChangesOnlyIseq : Prop :=
  ∀ s : State, s.iseq = .ret →
    ∃ t, exec .tickIsr s = .next t ∧ t = { s with iseq := .idle, history := s.history ++ [.irqRet] } ∧
      (s.irqPending = true → s.irqEnable = true → t.EntryEnabled) ∧
      (∀ i, s.mseq.operation = some i → mainlineStep t = exec i t)

/-- R112, R113: on thirteen ISR turns with `LOAD_READY` set, a pass runs from entry to return, in its fixed order, and leaves
exactly what the rule lists. -/
def Obligations.PassRunsToItsReturn : Prop :=
  ∀ (s : State) (p : Pins) (ts : List Turn),
    s.config.Legal → s.EntryEnabled → p.loadReady = true → s.turns = List.replicate 13 (.isr p) ++ ts →
    let v := s.rawCounter + BitVec.ofNat 24 s.config.tickInterval
    let now := (s.tickCounter + 1) % 2 ^ s.config.tickW
    let n := p.etNext % 2 ^ s.config.tickW
    Host.Core.run core 13 s =
      .next { s with
        turns := ts, pins := { p with etNext := n },
        snap := s.rawCounter, newcmp := v, cntLatch := upperHalf s.rawCounter, cmpHold := upperHalf v, cmp := v,
        armed := true, irqPending := false, tickCounter := now,
        history := s.history ++ ([.irqEntry, .adopt v] ++
          (if p.etPending = true ∧ subMod s.config.tickW now n < 2 ^ (s.config.tickW - 1) then [.pollReq] else []) ++
          [.irqRet]) }

/-- R114: the wraparound-safe test and the plain `≤` agree wherever no more than half the range lies between the two ticks.
The half range is the convention the spec marks as general knowledge (log 22). -/
def Obligations.ExpiryAgreesWithPlainComparison : Prop :=
  ∀ (c : Config) (n now : Nat), 1 ≤ c.tickW → n < 2 ^ c.tickW → now < 2 ^ c.tickW →
    (n ≤ now → now - n < 2 ^ (c.tickW - 1) → Expired c n now) ∧
    (now < n → n - now ≤ 2 ^ (c.tickW - 1) → ¬Expired c n now)

/-- R115: `CLOCK_TIME` responds with all of `TickCounter` in the accepting micro-step and writes nothing. -/
def Obligations.ClockTimeResponds : Prop :=
  ∀ s : State, s.CanAccept → s.phase = .running →
    exec .clockTime s = .next { s with history := s.history ++ [.rsp 0x1 (some s.tickCounter)] }

/-- R116: `CLOCK_SECONDS` responds with `floor(TickCounter / TICKS_PER_SECOND)`, which is at most
`floor((2^W - 1) / TICKS_PER_SECOND)`, and writes nothing. -/
def Obligations.ClockSecondsResponds : Prop :=
  ∀ s : State, s.CanAccept → s.phase = .running →
    exec .clockSeconds s =
        .next { s with history := s.history ++ [.rsp 0x2 (some (s.tickCounter / s.config.ticksPerSecond))] } ∧
      (s.tickCounter < 2 ^ s.config.tickW →
        s.tickCounter / s.config.ticksPerSecond ≤ (2 ^ s.config.tickW - 1) / s.config.ticksPerSecond)

/-- R117, R118: acceptance of `CLOCK_DELAY(ms)`, with the literal two-step division. -/
def Obligations.ClockDelayStarts : Prop :=
  ∀ (s : State) (ms : Nat), s.CanAccept → s.phase = .running →
    exec (.clockDelay ms) s =
      .next { s with dlyStart := s.tickCounter, dlyTicks := ms / (1000 / s.config.ticksPerSecond), mseq := .poll }

/-- R117: a poll completes exactly when `(TickCounter -_W DLY_START) >= DLY_TICKS`, else it waits. -/
def Obligations.ClockDelayPolls : Prop :=
  ∀ (s : State) (ms : Nat), s.iseq = .idle → s.mseq = .poll →
    exec (.clockDelay ms) s =
      .next (if s.dlyTicks ≤ subMod s.config.tickW s.tickCounter s.dlyStart
             then { s with mseq := .idle, history := s.history ++ [.rsp 0x3 none] } else s)

/-- R117, R184: the completion test counts elapsed ticks across a wrap of `TickCounter`: after `e` increments, fewer than a
lap, it holds exactly when `e` has reached `DLY_TICKS`. -/
def Obligations.DelayTestCountsElapsedTicks : Prop :=
  ∀ (s : State) (e : Nat), s.dlyStart < 2 ^ s.config.tickW → e < 2 ^ s.config.tickW →
    s.tickCounter = (s.dlyStart + e) % 2 ^ s.config.tickW → (s.DelayDone ↔ s.dlyTicks ≤ e)

/-- R118: the two-step division fits `W` bits and errs long, never short, of the exact ratio. -/
def Obligations.DelayErrsLong : Prop :=
  ∀ (c : Config) (ms : Nat), c.Legal →
    ms * c.ticksPerSecond / 1000 ≤ delayTicksOf c ms ∧ delayTicksOf c ms ≤ ms

/-! ## The timer (spec/20_memory.md, spec/60_exceptions.md) -/

/-- R65: the access primitives of the timer-side space, for every address and both directions. -/
def Obligations.TimerSideAccesses : Prop :=
  ∀ (s : State) (b : Byte),
    s.memRead 0 = .ok (s.rawCounter.extractLsb' 0 8, { s with cntLatch := s.rawCounter.extractLsb' 8 16 }) ∧
    s.memRead 1 = .ok (s.cntLatch.extractLsb' 0 8, s) ∧
    s.memRead 2 = .ok (s.cntLatch.extractLsb' 8 8, s) ∧
    s.memRead 6 = .ok (BitVec.ofNat 8 s.pins.loadReady.toNat, s) ∧
    s.memWrite 5 b = .ok { s with cmpHold := b ++ s.cmpHold.extractLsb' 0 8 } ∧
    s.memWrite 4 b = .ok { s with cmpHold := s.cmpHold.extractLsb' 8 8 ++ b } ∧
    s.memWrite 3 b =
      .ok { s with cmp := s.cmpHold ++ b, armed := true, history := s.history ++ [.adopt (s.cmpHold ++ b)] } ∧
    (∀ a : BitVec 3, a = 3 ∨ a = 4 ∨ a = 5 ∨ a = 7 → s.memRead a = .error (.timerSpaceRead a.toNat)) ∧
    (∀ a : BitVec 3, a = 0 ∨ a = 1 ∨ a = 2 ∨ a = 6 ∨ a = 7 → s.memWrite a b = .error (.timerSpaceWrite a.toNat))

/-- R52: `v = low + 256*mid + 65536*high`, and the three bytes put together are the value. -/
def Obligations.BytesOfA24BitValue : Prop :=
  ∀ v : Word24,
    v.toNat = (lowByte v).toNat + 256 * (midByte v).toNat + 65536 * (highByte v).toNat ∧
      ofBytes (highByte v) (midByte v) (lowByte v) = v

/-- R142: the COUNTER step, enabled in every state: the counter advances, and a match on arrival, and only then, sets
`IRQ_PENDING` and clears `ARMED`, whatever `IRQ_ENABLE` is. -/
def Obligations.CounterStepMatchesOnArrival : Prop :=
  ∀ s : State, s.config.Legal → s.nextTurn = .counter →
    let s₀ := s.takeTurn.2
    step s = .next
      (if s.armed = true ∧ s.rawCounter + 1 = s.cmp
       then { s₀ with rawCounter := s.rawCounter + 1, irqPending := true, armed := false,
                      history := s.history ++ [.matched] }
       else { s₀ with rawCounter := s.rawCounter + 1 })

/-- R95, R142: while `ARMED = 1` the next match happens at the `r`-th COUNTER step,
`r = ((CMP -_24 RawCounter -_24 1) mod 2^24) + 1`, and not before. -/
def Obligations.NextMatchDistance : Prop :=
  ∀ s : State, s.armed = true →
    let r := subMod 24 (subMod 24 s.cmp.toNat s.rawCounter.toNat) 1 + 1
    1 ≤ r ∧ r ≤ 2 ^ 24 ∧ r = distanceToMatch s.cmp s.rawCounter ∧
    (∀ k, k < r → State.counterStep^[k] s = { s with rawCounter := s.rawCounter + BitVec.ofNat 24 k }) ∧
    State.counterStep^[r] s =
      { s with rawCounter := s.cmp, irqPending := true, armed := false, history := s.history ++ [.matched] }

/-- R142, R27: a disarmed comparator never matches, however often the counter goes round: "a missed call causes the
hardware to never re-fire". -/
def Obligations.DisarmedNeverFires : Prop :=
  ∀ (s : State) (k : Nat), s.armed = false →
    State.counterStep^[k] s = { s with rawCounter := s.rawCounter + BitVec.ofNat 24 k }

/-- R147 (a), R174: the two orders of a match and I_CLR. A match before I_CLR is wiped, and after the return the timer is
dead; a match after I_CLR stays pending. -/
def Obligations.MatchAgainstClear : Prop :=
  ∀ s : State, s.iseq = .clr → s.phase = .running → s.mseq = .idle ∨ s.mseq = .poll →
    s.armed = true → s.rawCounter + 1 = s.cmp →
    (∃ t u, exec .tickIsr s.counterStep = .next t ∧ exec .tickIsr t = .next u ∧ u.TimerDead) ∧
    (∃ t u, exec .tickIsr s = .next t ∧ exec .tickIsr t.counterStep = .next u ∧
      u.irqPending = true ∧ u.armed = false ∧ u.iseq = .idle)

/-- R174: a dead timer stays dead and `TickCounter` stops, whatever turns come, until a RESET. -/
def Obligations.DeadTimerStaysDead : Prop :=
  ∀ s t : State, s.TimerDead → step s = .next t →
    (∃ f, s.nextTurn = .reset f) ∨ (t.TimerDead ∧ t.tickCounter = s.tickCounter)

/-! ## Reset (spec/70_reset_and_hazards.md) -/

/-- R171: the values the spec states for reset, in the state the machine starts from. -/
def Obligations.ResetStateHasTheStatedValues : Prop :=
  State.reset.tickCounter = 0 ∧ State.reset.phase = .uninitialized ∧ State.reset.mseq = .idle ∧
    State.reset.iseq = .idle ∧ State.reset.irqEnable = false ∧ State.reset.irqPending = false ∧
    State.reset.armed = false ∧ State.reset.oscReq = false

/-- R170, R171: a RESET gives every element its reset value in one step, whatever the sequencers were doing, and does not
touch `RawCounter`. The unspecified registers hold what the event carries (U12; log 3), the history goes on (log 14) and
the port is idle (log 7). -/
def Obligations.ResetEventTakesEveryElement : Prop :=
  ∀ (s : State) (f : ResetFill), s.config.Legal → s.nextTurn = .reset f →
    let s₀ := s.takeTurn.2
    step s = .next
      { s₀ with
        tickCounter := 0, phase := .uninitialized, mseq := .idle, iseq := .idle, oscReq := false,
        armed := false, irqPending := false, irqEnable := false,
        snap := f.snap, newcmp := f.newcmp, cntLatch := f.cntLatch, cmp := f.cmp, cmpHold := f.cmpHold,
        dlyStart := f.dlyStart % 2 ^ s.config.tickW, dlyTicks := f.dlyTicks % 2 ^ s.config.tickW,
        history := s.history ++ [.reset], port := none }

/-- R171: "no behaviour of the machine depends on an unspecified reset value": runs of any length, over any turns, from the
states after two RESETs that differ only in what they leave in the unspecified registers behave the same. -/
def Obligations.UnspecifiedResetValuesAreUnobservable : Prop :=
  ∀ (s : State) (f g : ResetFill) (k : Nat),
    SameBehaviour (Host.Core.run core k (s.takeReset f)) (Host.Core.run core k (s.takeReset g))

/-! ## Rules of the whole machine (spec/10_state.md, spec/60_exceptions.md) -/

/-- R21, R62: `TickCounter` is written only by I_INC, where it goes up by one modulo `2^W`, and by reset. -/
def Obligations.OnlyIncrementWritesTickCounter : Prop :=
  ∀ s t : State, step s = .next t →
    t.tickCounter = s.tickCounter ∨
    (∃ p, s.nextTurn = .isr p ∧ s.iseq = .inc ∧ t.tickCounter = (s.tickCounter + 1) % 2 ^ s.config.tickW) ∨
    (∃ f, s.nextTurn = .reset f ∧ t.tickCounter = 0)

/-- R22, R29, R110: `PHASE` and `IRQ_ENABLE` are written only by the last micro-step of `CLOCK_INIT`, both at once, and by
reset. R35, R90: `OSC_REQ` is set only where `INIT_CLOCK_SOURCE` starts, at the acceptance of `CLOCK_INIT`, and cleared only by
reset. -/
def Obligations.OnlyClockInitEnables : Prop :=
  ∀ s t : State, step s = .next t →
    ((t.phase = s.phase ∧ t.irqEnable = s.irqEnable) ∨
      (∃ o p, s.nextTurn = .mainline o p ∧ s.iseq = .idle ∧ s.mseq = .en ∧ t.phase = .running ∧ t.irqEnable = true) ∨
      (∃ f, s.nextTurn = .reset f ∧ t.phase = .uninitialized ∧ t.irqEnable = false)) ∧
    (t.oscReq = s.oscReq ∨
      (∃ o p cw, s.nextTurn = .mainline o p ∧ s.CanAccept ∧ s.phase = .uninitialized ∧ s.offered o = some cw ∧
        decodeCommand s.config cw = .ok .clockInit ∧ t.oscReq = true ∧ t.mseq = .osc) ∨
      (∃ f, s.nextTurn = .reset f ∧ t.oscReq = false))

/-- R25, R39: `RawCounter` is written only by the COUNTER step, and never by reset; the parameters never change. -/
def Obligations.OnlyCounterWritesRawCounter : Prop :=
  ∀ s t : State, step s = .next t →
    t.config = s.config ∧ t.rawCounter = if s.nextTurn = .counter then s.rawCounter + 1 else s.rawCounter

/-- R23, R54: but for reset, `CMP` changes only in step A7 of a reload, all 24 bits at once, with `ADOPT`. -/
def Obligations.OnlyAdoptionWritesCmp : Prop :=
  ∀ s t : State, step s = .next t → (∀ f, s.nextTurn ≠ .reset f) →
    t.cmp = s.cmp ∨
      (s.armPos = some .a7 ∧ t.cmp = s.cmpHold ++ lowByte s.newcmp ∧ t.armed = true ∧
        t.history = s.history ++ [.adopt t.cmp])

/-- R27, R28: but for reset, `IRQ_PENDING` is set only by a match and cleared only by I_CLR, and `ARMED` is set only by an
adoption and cleared only by a match. -/
def Obligations.WhatSetsAndClearsTheInterruptBits : Prop :=
  ∀ s t : State, step s = .next t → (∀ f, s.nextTurn ≠ .reset f) →
    (s.irqPending = false → t.irqPending = true →
      s.nextTurn = .counter ∧ s.armed = true ∧ s.rawCounter + 1 = s.cmp) ∧
    (s.irqPending = true → t.irqPending = false → s.iseq = .clr ∧ ∃ p, s.nextTurn = .isr p) ∧
    (s.armed = false → t.armed = true → s.armPos = some .a7) ∧
    (s.armed = true → t.armed = false → s.nextTurn = .counter ∧ s.rawCounter + 1 = s.cmp)

/-- R44, R149, R150: in the interrupt context the mainline is frozen: a MAINLINE turn changes nothing but the model's own
input fields, and no turn but a reset changes a mainline register, the phase or the enable. R75: a presented word stays
presented, and an empty port takes the offer of a MAINLINE turn (log 7, log 8). -/
def Obligations.MainlineFrozenInInterruptContext : Prop :=
  ∀ s t : State, s.InIsr → step s = .next t → (∀ f, s.nextTurn ≠ .reset f) →
    (t.mseq = s.mseq ∧ t.dlyStart = s.dlyStart ∧ t.dlyTicks = s.dlyTicks ∧ t.phase = s.phase ∧
      t.irqEnable = s.irqEnable ∧ t.oscReq = s.oscReq) ∧
    (∀ o p, s.nextTurn = .mainline o p →
      t = { s with pins := t.pins, port := t.port, turns := t.turns, turnNo := t.turnNo }) ∧
    (∀ cw, s.port = some cw → t.port = some cw) ∧
    (s.port = none → (∀ o p, s.nextTurn = .mainline o p → t.port = o.map (· % 2 ^ (s.config.tickW + 4))) ∧
      ((∀ o p, s.nextTurn ≠ .mainline o p) → t.port = none))

/-- R30, R146: `ISEQ` leaves I_IDLE only by entry and returns to it only by I_RET or reset: no nesting, and no pass
without a pending, enabled interrupt. -/
def Obligations.InterruptContextOnlyByEntryAndReturn : Prop :=
  ∀ s t : State, step s = .next t →
    (s.iseq = .idle → t.iseq ≠ .idle → t.iseq = .arm .a0 ∧ s.irqPending = true ∧ s.irqEnable = true ∧
      t.history = s.history ++ [.irqEntry]) ∧
    (s.iseq ≠ .idle → t.iseq = .idle →
      (s.iseq = .ret ∧ t.history = s.history ++ [.irqRet]) ∨ ∃ f, s.nextTurn = .reset f)

/-- R33: `DLY_START` and `DLY_TICKS` do not change while `MSEQ = M_POLL`, but for reset, and a poll is left only by the
completion test (R120). -/
def Obligations.DelayEndsOnlyByItsTest : Prop :=
  ∀ s t : State, s.mseq = .poll → step s = .next t → (∀ f, s.nextTurn ≠ .reset f) →
    t.dlyStart = s.dlyStart ∧ t.dlyTicks = s.dlyTicks ∧
      (t.mseq = .poll ∨
        (t.mseq = .idle ∧ s.iseq = .idle ∧ s.dlyTicks ≤ subMod s.config.tickW s.tickCounter s.dlyStart ∧
          t.history = s.history ++ [.rsp 0x3 none]))

/-- R41: the history is written only: it grows at its end, and a step on another history does the same and appends the
same events. -/
def Obligations.HistoryIsWrittenOnly : Prop :=
  ∀ (s : State) (h : List Event),
    match step s with
    | .next t => ∃ es, t.history = s.history ++ es ∧ step { s with history := h } = .next { t with history := h ++ es }
    | .fault r => step { s with history := h } = .fault r
    | .refused r => step { s with history := h } = .refused r

/-- R141: the four waits persist while their condition does not hold: CLOCK_INIT stays at M_OSC or at M_ARM(A4) with the
interrupt disabled, a pass stays at I_ARM(A4) with the mainline frozen, `TickCounter` stopped and the interrupt pending, and
CLOCK_DELAY stays at M_POLL, its registers unchanged. -/
def Obligations.HangsPersistWhileTheSampleIsZero : Prop :=
  ∀ s t : State, s.Coherent → step s = .next t → (∀ f, s.nextTurn ≠ .reset f) →
    (s.mseq = .osc → s.iseq = .idle → (∀ o p, s.nextTurn = .mainline o p → p.oscOk = false) →
      t.mseq = .osc ∧ t.phase = .uninitialized ∧ t.irqEnable = false ∧ t.iseq = .idle) ∧
    (s.mseq = .arm .a4 → s.iseq = .idle → (∀ o p, s.nextTurn = .mainline o p → p.loadReady = false) →
      t.mseq = .arm .a4 ∧ t.phase = .uninitialized ∧ t.irqEnable = false ∧ t.iseq = .idle ∧ t.newcmp = s.newcmp) ∧
    (s.iseq = .arm .a4 → s.irqPending = true → (∀ p, s.nextTurn = .isr p → p.loadReady = false) →
      t.iseq = .arm .a4 ∧ t.mseq = s.mseq ∧ t.tickCounter = s.tickCounter ∧ t.irqPending = true ∧
        t.newcmp = s.newcmp) ∧
    (s.mseq = .poll → subMod s.config.tickW s.tickCounter s.dlyStart < s.dlyTicks →
      t.mseq = .poll ∧ t.dlyStart = s.dlyStart ∧ t.dlyTicks = s.dlyTicks)

/-! ## Invariants that every step keeps -/

/-- The invariants hold of the machine after reset: the values R171 states, and the model's choices for the configuration,
the unspecified registers and the model's own fields (log 1, log 3, log 4, log 23). -/
def Obligations.ResetStateIsSafe : Prop :=
  State.reset.config.Legal ∧ State.reset.InRange ∧ State.reset.Coherent ∧ State.reset.OneShot ∧
    State.reset.ReloadKept ∧ State.reset.TickExact ∧ State.reset.DelayExact

/-- R9, R122: every value of `TICK_W` bits stays in its width. -/
def Obligations.StepKeepsValuesInRange : Prop :=
  ∀ s t : State, s.InRange → step s = .next t → t.InRange

/-- R22, R29, R32, R110: the interrupt is enabled exactly when PHASE is Running, CLOCK_INIT is never in progress together
with a pass, and CLOCK_DELAY polls only when Running. -/
def Obligations.StepKeepsPhasesCoherent : Prop :=
  ∀ s t : State, s.Coherent → step s = .next t → t.Coherent

/-- R27, R92, R142, R143: the one-shot comparator over passes: each pass starts from a match with the comparator disarmed, arms
once, and holds the flag until I_CLR; outside a pass no state is both armed and pending. -/
def Obligations.StepKeepsTheComparatorOneShot : Prop :=
  ∀ s t : State, s.Coherent → s.OneShot → step s = .next t → t.OneShot

/-- R95, R96: whenever no reload is in progress in a running machine, `CMP = SNAP +_24 TICK_INTERVAL`. -/
def Obligations.StepKeepsTheReload : Prop :=
  ∀ s t : State, s.Coherent → s.ReloadKept → step s = .next t → t.ReloadKept

/-- R121: `TickCounter` is the number of passes since reset that have completed their I_INC, modulo `2^W`. -/
def Obligations.StepKeepsTicksExact : Prop :=
  ∀ s t : State, s.TickExact → step s = .next t → t.TickExact

/-- R127: while CLOCK_DELAY polls, the elapsed count is the number of passes since its acceptance that have completed their
I_INC, modulo `2^W`. -/
def Obligations.StepKeepsTheDelayExact : Prop :=
  ∀ s t : State, s.DelayExact → step s = .next t → t.DelayExact

/-- R127 (a): never early, unconditionally: at the `RSP(0x3)` of a CLOCK_DELAY at least `DLY_TICKS` passes have completed
their I_INC since its acceptance. -/
def Obligations.DelayNeverReturnsEarly : Prop :=
  ∀ s t : State, s.DelayExact → s.mseq = .poll → step s = .next t → t.history = s.history ++ [.rsp 0x3 none] →
    s.dlyTicks ≤ passesSince isCommand s.history
end

