-- ==== Sys2Proof/Laws/Operands.lean ====
section
/-! SUPPORT. The byte fields, the modular arithmetic and the two divisions of spec/41_tick_service.md R122. -/

namespace Sys2Proof

theorem addMod_lt (n a b : Nat) : addMod n a b < 2 ^ n := Nat.mod_lt _ (Nat.two_pow_pos n)

theorem subMod_lt (n a b : Nat) : subMod n a b < 2 ^ n := Nat.mod_lt _ (Nat.two_pow_pos n)

/-- Modular subtraction is the one value below `2^n` that added to `b` gives `a` modulo `2^n`. -/
theorem subMod_eq_iff {n a b d : Nat} (hd : d < 2 ^ n) : subMod n a b = d ↔ (b + d) % 2 ^ n = a % 2 ^ n := by
  unfold subMod
  have hp := Nat.two_pow_pos n
  generalize 2 ^ n = m at *
  have ha := Nat.mod_lt a hp
  have hb := Nat.mod_lt b hp
  rw [Nat.add_mod b d m, Nat.mod_eq_of_lt hd]
  generalize a % m = x at *
  generalize b % m = y at *
  rcases Nat.lt_or_ge x y with h | h
  · rw [Nat.mod_eq_of_lt (by omega : x + (m - y) < m)]
    constructor
    · rintro rfl
      rw [show y + (x + (m - y)) = x + m by omega, Nat.add_mod_right, Nat.mod_eq_of_lt ha]
    · intro h'
      rcases Nat.lt_or_ge (y + d) m with h2 | h2
      · rw [Nat.mod_eq_of_lt h2] at h'; omega
      · rw [Nat.mod_eq_sub_mod h2, Nat.mod_eq_of_lt (by omega)] at h'; omega
  · rw [show x + (m - y) = x - y + m by omega, Nat.add_mod_right, Nat.mod_eq_of_lt (by omega)]
    constructor
    · rintro rfl
      rw [Nat.mod_eq_of_lt (by omega)]; omega
    · intro h'
      rcases Nat.lt_or_ge (y + d) m with h2 | h2
      · rw [Nat.mod_eq_of_lt h2] at h'; omega
      · rw [Nat.mod_eq_sub_mod h2, Nat.mod_eq_of_lt (by omega)] at h'; omega

@[simp] theorem subMod_self (n a : Nat) : subMod n a a = 0 :=
  (subMod_eq_iff (Nat.two_pow_pos n)).2 rfl

/-- A count that starts at `b` shows the number of increments since, modulo `2^n`. -/
theorem subMod_add_left (n b k : Nat) : subMod n (b + k) b = k % 2 ^ n :=
  (subMod_eq_iff (Nat.mod_lt _ (Nat.two_pow_pos n))).2 (by simp)

/-- Where nothing wraps, modular subtraction is subtraction. -/
theorem subMod_eq_sub {n a b : Nat} (ha : a < 2 ^ n) (hb : b ≤ a) : subMod n a b = a - b :=
  (subMod_eq_iff (by omega)).2 (by rw [Nat.add_sub_cancel' hb])

theorem subMod_mod_left (n a b : Nat) : subMod n (a % 2 ^ n) b = subMod n a b := by simp [subMod]

theorem Config.Legal.jiffy_pos {c : Config} (h : c.Legal) : 1 ≤ c.jiffy :=
  (Nat.one_le_div_iff (by have := h.2.1; omega)).2 h.2.2.1

theorem Config.Legal.tickInterval_lt {c : Config} (h : c.Legal) : c.tickInterval < 2 ^ 24 := by
  have := h.2.2.2.2.2; omega

namespace Machine

/-- The bits of a value put together from its bytes (R52). -/
theorem getLsbD_ofBytes (x y z : Byte) (i : Nat) :
    (ofBytes x y z).getLsbD i =
      if i < 8 then z.getLsbD i else if i < 16 then y.getLsbD (i - 8) else x.getLsbD (i - 16) := by
  have h1 : (ofBytes x y z).getLsbD i = _ := BitVec.getLsbD_append (x := x ++ y) (y := z)
  have h2 : (x ++ y).getLsbD (i - 8) = _ := BitVec.getLsbD_append (x := x) (y := y)
  rw [h1, h2]
  by_cases h : i < 8
  · simp [h]
  · rw [if_neg h, if_neg h, show i - 8 - 8 = i - 16 by omega]
    simp only [show i - 8 < 8 ↔ i < 16 by omega]

/-- The bits of a value put together from the holding latch and a byte (R51). -/
theorem getLsbD_adoptedValue (h : Half) (b : Byte) (i : Nat) :
    (adoptedValue h b).getLsbD i = if i < 8 then b.getLsbD i else h.getLsbD (i - 8) :=
  BitVec.getLsbD_append (x := h) (y := b)

theorem getLsbD_setHalfLow (h : Half) (b : Byte) (i : Nat) :
    (setHalfLow h b).getLsbD i = if i < 8 then b.getLsbD i else (halfHigh h).getLsbD (i - 8) :=
  BitVec.getLsbD_append (x := halfHigh h) (y := b)

theorem getLsbD_setHalfHigh (h : Half) (b : Byte) (i : Nat) :
    (setHalfHigh h b).getLsbD i = if i < 8 then (halfLow h).getLsbD i else b.getLsbD (i - 8) :=
  BitVec.getLsbD_append (x := b) (y := halfLow h)

@[simp] theorem lowByte_ofBytes (x y z : Byte) : lowByte (ofBytes x y z) = z := by
  refine BitVec.eq_of_getLsbD_eq fun i hi => ?_
  simp [lowByte, getLsbD_ofBytes, hi]

@[simp] theorem midByte_ofBytes (x y z : Byte) : midByte (ofBytes x y z) = y := by
  refine BitVec.eq_of_getLsbD_eq fun i hi => ?_
  simp [midByte, getLsbD_ofBytes, hi, show 8 + i < 16 by omega]

@[simp] theorem highByte_ofBytes (x y z : Byte) : highByte (ofBytes x y z) = x := by
  refine BitVec.eq_of_getLsbD_eq fun i hi => ?_
  simp [highByte, getLsbD_ofBytes, hi, show ¬16 + i < 8 by omega]

@[simp] theorem halfLow_upperHalf (v : Word24) : halfLow (upperHalf v) = midByte v := by
  refine BitVec.eq_of_getLsbD_eq fun i hi => ?_
  simp [halfLow, upperHalf, midByte, hi, show i < 16 by omega]

@[simp] theorem halfHigh_upperHalf (v : Word24) : halfHigh (upperHalf v) = highByte v := by
  refine BitVec.eq_of_getLsbD_eq fun i hi => ?_
  simp [halfHigh, upperHalf, highByte, hi, show 8 + i < 16 by omega, ← Nat.add_assoc]

@[simp] theorem halfLow_setHalfLow (h : Half) (b : Byte) : halfLow (setHalfLow h b) = b := by
  refine BitVec.eq_of_getLsbD_eq fun i hi => ?_
  simp [halfLow, getLsbD_setHalfLow, hi]

@[simp] theorem halfHigh_setHalfLow (h : Half) (b : Byte) : halfHigh (setHalfLow h b) = halfHigh h := by
  refine BitVec.eq_of_getLsbD_eq fun i hi => ?_
  simp [halfHigh, getLsbD_setHalfLow, hi]

@[simp] theorem halfHigh_setHalfHigh (h : Half) (b : Byte) : halfHigh (setHalfHigh h b) = b := by
  refine BitVec.eq_of_getLsbD_eq fun i hi => ?_
  simp [halfHigh, getLsbD_setHalfHigh, hi]

@[simp] theorem halfLow_setHalfHigh (h : Half) (b : Byte) : halfLow (setHalfHigh h b) = halfLow h := by
  refine BitVec.eq_of_getLsbD_eq fun i hi => ?_
  simp [halfLow, getLsbD_setHalfHigh, hi]

/-- A value is its three bytes (R52). -/
@[simp] theorem ofBytes_bytes (v : Word24) : ofBytes (highByte v) (midByte v) (lowByte v) = v := by
  refine BitVec.eq_of_getLsbD_eq fun i hi => ?_
  rw [getLsbD_ofBytes]
  by_cases h1 : i < 8
  · simp [h1, lowByte]
  · by_cases h2 : i < 16
    · simp [h1, h2, midByte, show i - 8 < 8 by omega, show 8 + (i - 8) = i by omega]
    · simp [h1, h2, highByte, show i - 16 < 8 by omega, show 16 + (i - 16) = i by omega]

/-- The value adopted from the upper half and the low byte of a value is the value (R51, R92). -/
@[simp] theorem adoptedValue_upperHalf (v : Word24) : adoptedValue (upperHalf v) (lowByte v) = v := by
  refine BitVec.eq_of_getLsbD_eq fun i hi => ?_
  rw [getLsbD_adoptedValue]
  by_cases h1 : i < 8
  · simp [h1, lowByte]
  · simp [h1, upperHalf, show i - 8 < 16 by omega, show 8 + (i - 8) = i by omega]

/-- A latch is its two bytes. -/
theorem half_ext {h k : Half} (hh : halfHigh h = halfHigh k) (hl : halfLow h = halfLow k) : h = k := by
  refine BitVec.eq_of_getLsbD_eq fun i hi => ?_
  by_cases h1 : i < 8
  · simpa [halfLow, h1] using congrArg (·.getLsbD i) hl
  · simpa [halfHigh, show i - 8 < 8 by omega, show 8 + (i - 8) = i by omega] using congrArg (·.getLsbD (i - 8)) hh

/-- The bytes of a value, as R52 counts them: `v = low + 256*mid + 65536*high`. -/
theorem toNat_ofBytes (x y z : Byte) : (ofBytes x y z).toNat = z.toNat + 256 * y.toNat + 65536 * x.toNat := by
  have h1 : (ofBytes x y z).toNat = (x ++ y).toNat <<< 8 ||| z.toNat := BitVec.toNat_append _ _
  rw [h1, BitVec.toNat_append, ← Nat.shiftLeft_add_eq_or_of_lt z.isLt, ← Nat.shiftLeft_add_eq_or_of_lt y.isLt]
  simp only [Nat.shiftLeft_eq]
  omega

end Machine

end Sys2Proof
end

