-- ==== Sys2Proof/Laws/State.lean ====
section
/-! SUPPORT. One lemma per field per update of State, so that no later proof unfolds a record update. The updates that
test something change only the fields their own lemmas in Sys2Proof/Laws/Ops.lean describe. -/

namespace Sys2Proof.Machine

variable (s : State)

/-! ## State.emit -/

@[simp] theorem State.emit_config (e : Event) : (s.emit e).config = s.config := rfl
@[simp] theorem State.emit_tickCounter (e : Event) : (s.emit e).tickCounter = s.tickCounter := rfl
@[simp] theorem State.emit_phase (e : Event) : (s.emit e).phase = s.phase := rfl
@[simp] theorem State.emit_mseq (e : Event) : (s.emit e).mseq = s.mseq := rfl
@[simp] theorem State.emit_iseq (e : Event) : (s.emit e).iseq = s.iseq := rfl
@[simp] theorem State.emit_snap (e : Event) : (s.emit e).snap = s.snap := rfl
@[simp] theorem State.emit_newcmp (e : Event) : (s.emit e).newcmp = s.newcmp := rfl
@[simp] theorem State.emit_dlyStart (e : Event) : (s.emit e).dlyStart = s.dlyStart := rfl
@[simp] theorem State.emit_dlyTicks (e : Event) : (s.emit e).dlyTicks = s.dlyTicks := rfl
@[simp] theorem State.emit_oscReq (e : Event) : (s.emit e).oscReq = s.oscReq := rfl
@[simp] theorem State.emit_rawCounter (e : Event) : (s.emit e).rawCounter = s.rawCounter := rfl
@[simp] theorem State.emit_cntLatch (e : Event) : (s.emit e).cntLatch = s.cntLatch := rfl
@[simp] theorem State.emit_cmp (e : Event) : (s.emit e).cmp = s.cmp := rfl
@[simp] theorem State.emit_cmpHold (e : Event) : (s.emit e).cmpHold = s.cmpHold := rfl
@[simp] theorem State.emit_armed (e : Event) : (s.emit e).armed = s.armed := rfl
@[simp] theorem State.emit_irqPending (e : Event) : (s.emit e).irqPending = s.irqPending := rfl
@[simp] theorem State.emit_irqEnable (e : Event) : (s.emit e).irqEnable = s.irqEnable := rfl
@[simp] theorem State.emit_history (e : Event) : (s.emit e).history = s.history ++ [e] := rfl
@[simp] theorem State.emit_port (e : Event) : (s.emit e).port = s.port := rfl
@[simp] theorem State.emit_pins (e : Event) : (s.emit e).pins = s.pins := rfl
@[simp] theorem State.emit_turns (e : Event) : (s.emit e).turns = s.turns := rfl
@[simp] theorem State.emit_turnNo (e : Event) : (s.emit e).turnNo = s.turnNo := rfl

/-! ## State.latchPins -/

@[simp] theorem State.latchPins_config (p : Pins) : (s.latchPins p).config = s.config := rfl
@[simp] theorem State.latchPins_tickCounter (p : Pins) : (s.latchPins p).tickCounter = s.tickCounter := rfl
@[simp] theorem State.latchPins_phase (p : Pins) : (s.latchPins p).phase = s.phase := rfl
@[simp] theorem State.latchPins_mseq (p : Pins) : (s.latchPins p).mseq = s.mseq := rfl
@[simp] theorem State.latchPins_iseq (p : Pins) : (s.latchPins p).iseq = s.iseq := rfl
@[simp] theorem State.latchPins_snap (p : Pins) : (s.latchPins p).snap = s.snap := rfl
@[simp] theorem State.latchPins_newcmp (p : Pins) : (s.latchPins p).newcmp = s.newcmp := rfl
@[simp] theorem State.latchPins_dlyStart (p : Pins) : (s.latchPins p).dlyStart = s.dlyStart := rfl
@[simp] theorem State.latchPins_dlyTicks (p : Pins) : (s.latchPins p).dlyTicks = s.dlyTicks := rfl
@[simp] theorem State.latchPins_oscReq (p : Pins) : (s.latchPins p).oscReq = s.oscReq := rfl
@[simp] theorem State.latchPins_rawCounter (p : Pins) : (s.latchPins p).rawCounter = s.rawCounter := rfl
@[simp] theorem State.latchPins_cntLatch (p : Pins) : (s.latchPins p).cntLatch = s.cntLatch := rfl
@[simp] theorem State.latchPins_cmp (p : Pins) : (s.latchPins p).cmp = s.cmp := rfl
@[simp] theorem State.latchPins_cmpHold (p : Pins) : (s.latchPins p).cmpHold = s.cmpHold := rfl
@[simp] theorem State.latchPins_armed (p : Pins) : (s.latchPins p).armed = s.armed := rfl
@[simp] theorem State.latchPins_irqPending (p : Pins) : (s.latchPins p).irqPending = s.irqPending := rfl
@[simp] theorem State.latchPins_irqEnable (p : Pins) : (s.latchPins p).irqEnable = s.irqEnable := rfl
@[simp] theorem State.latchPins_history (p : Pins) : (s.latchPins p).history = s.history := rfl
@[simp] theorem State.latchPins_port (p : Pins) : (s.latchPins p).port = s.port := rfl
@[simp] theorem State.latchPins_pins (p : Pins) :
    (s.latchPins p).pins = { p with etNext := p.etNext % 2 ^ s.config.tickW } := rfl
@[simp] theorem State.latchPins_turns (p : Pins) : (s.latchPins p).turns = s.turns := rfl
@[simp] theorem State.latchPins_turnNo (p : Pins) : (s.latchPins p).turnNo = s.turnNo := rfl

/-! ## State.accept -/

@[simp] theorem State.accept_config (cw : Nat) : (s.accept cw).config = s.config := rfl
@[simp] theorem State.accept_tickCounter (cw : Nat) : (s.accept cw).tickCounter = s.tickCounter := rfl
@[simp] theorem State.accept_phase (cw : Nat) : (s.accept cw).phase = s.phase := rfl
@[simp] theorem State.accept_mseq (cw : Nat) : (s.accept cw).mseq = s.mseq := rfl
@[simp] theorem State.accept_iseq (cw : Nat) : (s.accept cw).iseq = s.iseq := rfl
@[simp] theorem State.accept_snap (cw : Nat) : (s.accept cw).snap = s.snap := rfl
@[simp] theorem State.accept_newcmp (cw : Nat) : (s.accept cw).newcmp = s.newcmp := rfl
@[simp] theorem State.accept_dlyStart (cw : Nat) : (s.accept cw).dlyStart = s.dlyStart := rfl
@[simp] theorem State.accept_dlyTicks (cw : Nat) : (s.accept cw).dlyTicks = s.dlyTicks := rfl
@[simp] theorem State.accept_oscReq (cw : Nat) : (s.accept cw).oscReq = s.oscReq := rfl
@[simp] theorem State.accept_rawCounter (cw : Nat) : (s.accept cw).rawCounter = s.rawCounter := rfl
@[simp] theorem State.accept_cntLatch (cw : Nat) : (s.accept cw).cntLatch = s.cntLatch := rfl
@[simp] theorem State.accept_cmp (cw : Nat) : (s.accept cw).cmp = s.cmp := rfl
@[simp] theorem State.accept_cmpHold (cw : Nat) : (s.accept cw).cmpHold = s.cmpHold := rfl
@[simp] theorem State.accept_armed (cw : Nat) : (s.accept cw).armed = s.armed := rfl
@[simp] theorem State.accept_irqPending (cw : Nat) : (s.accept cw).irqPending = s.irqPending := rfl
@[simp] theorem State.accept_irqEnable (cw : Nat) : (s.accept cw).irqEnable = s.irqEnable := rfl
@[simp] theorem State.accept_history (cw : Nat) :
    (s.accept cw).history = s.history ++ [.cmd (s.config.cmdOp cw) (s.config.cmdArg cw)] := rfl
@[simp] theorem State.accept_port (cw : Nat) : (s.accept cw).port = none := rfl
@[simp] theorem State.accept_pins (cw : Nat) : (s.accept cw).pins = s.pins := rfl
@[simp] theorem State.accept_turns (cw : Nat) : (s.accept cw).turns = s.turns := rfl
@[simp] theorem State.accept_turnNo (cw : Nat) : (s.accept cw).turnNo = s.turnNo := rfl

/-! ## State.respond -/

@[simp] theorem State.respond_config (op : Nat) (d : Option Tick) : (s.respond op d).config = s.config := rfl
@[simp] theorem State.respond_tickCounter (op : Nat) (d : Option Tick) :
    (s.respond op d).tickCounter = s.tickCounter := rfl
@[simp] theorem State.respond_phase (op : Nat) (d : Option Tick) : (s.respond op d).phase = s.phase := rfl
@[simp] theorem State.respond_mseq (op : Nat) (d : Option Tick) : (s.respond op d).mseq = .idle := rfl
@[simp] theorem State.respond_iseq (op : Nat) (d : Option Tick) : (s.respond op d).iseq = s.iseq := rfl
@[simp] theorem State.respond_snap (op : Nat) (d : Option Tick) : (s.respond op d).snap = s.snap := rfl
@[simp] theorem State.respond_newcmp (op : Nat) (d : Option Tick) : (s.respond op d).newcmp = s.newcmp := rfl
@[simp] theorem State.respond_dlyStart (op : Nat) (d : Option Tick) : (s.respond op d).dlyStart = s.dlyStart := rfl
@[simp] theorem State.respond_dlyTicks (op : Nat) (d : Option Tick) : (s.respond op d).dlyTicks = s.dlyTicks := rfl
@[simp] theorem State.respond_oscReq (op : Nat) (d : Option Tick) : (s.respond op d).oscReq = s.oscReq := rfl
@[simp] theorem State.respond_rawCounter (op : Nat) (d : Option Tick) :
    (s.respond op d).rawCounter = s.rawCounter := rfl
@[simp] theorem State.respond_cntLatch (op : Nat) (d : Option Tick) : (s.respond op d).cntLatch = s.cntLatch := rfl
@[simp] theorem State.respond_cmp (op : Nat) (d : Option Tick) : (s.respond op d).cmp = s.cmp := rfl
@[simp] theorem State.respond_cmpHold (op : Nat) (d : Option Tick) : (s.respond op d).cmpHold = s.cmpHold := rfl
@[simp] theorem State.respond_armed (op : Nat) (d : Option Tick) : (s.respond op d).armed = s.armed := rfl
@[simp] theorem State.respond_irqPending (op : Nat) (d : Option Tick) :
    (s.respond op d).irqPending = s.irqPending := rfl
@[simp] theorem State.respond_irqEnable (op : Nat) (d : Option Tick) : (s.respond op d).irqEnable = s.irqEnable := rfl
@[simp] theorem State.respond_history (op : Nat) (d : Option Tick) :
    (s.respond op d).history = s.history ++ [.rsp op d] := rfl
@[simp] theorem State.respond_port (op : Nat) (d : Option Tick) : (s.respond op d).port = s.port := rfl
@[simp] theorem State.respond_pins (op : Nat) (d : Option Tick) : (s.respond op d).pins = s.pins := rfl
@[simp] theorem State.respond_turns (op : Nat) (d : Option Tick) : (s.respond op d).turns = s.turns := rfl
@[simp] theorem State.respond_turnNo (op : Nat) (d : Option Tick) : (s.respond op d).turnNo = s.turnNo := rfl

/-! ## State.interruptEntry -/

@[simp] theorem State.interruptEntry_config : (s.interruptEntry).config = s.config := rfl
@[simp] theorem State.interruptEntry_tickCounter : (s.interruptEntry).tickCounter = s.tickCounter := rfl
@[simp] theorem State.interruptEntry_phase : (s.interruptEntry).phase = s.phase := rfl
@[simp] theorem State.interruptEntry_mseq : (s.interruptEntry).mseq = s.mseq := rfl
@[simp] theorem State.interruptEntry_iseq : (s.interruptEntry).iseq = .arm .a0 := rfl
@[simp] theorem State.interruptEntry_snap : (s.interruptEntry).snap = s.snap := rfl
@[simp] theorem State.interruptEntry_newcmp : (s.interruptEntry).newcmp = s.newcmp := rfl
@[simp] theorem State.interruptEntry_dlyStart : (s.interruptEntry).dlyStart = s.dlyStart := rfl
@[simp] theorem State.interruptEntry_dlyTicks : (s.interruptEntry).dlyTicks = s.dlyTicks := rfl
@[simp] theorem State.interruptEntry_oscReq : (s.interruptEntry).oscReq = s.oscReq := rfl
@[simp] theorem State.interruptEntry_rawCounter : (s.interruptEntry).rawCounter = s.rawCounter := rfl
@[simp] theorem State.interruptEntry_cntLatch : (s.interruptEntry).cntLatch = s.cntLatch := rfl
@[simp] theorem State.interruptEntry_cmp : (s.interruptEntry).cmp = s.cmp := rfl
@[simp] theorem State.interruptEntry_cmpHold : (s.interruptEntry).cmpHold = s.cmpHold := rfl
@[simp] theorem State.interruptEntry_armed : (s.interruptEntry).armed = s.armed := rfl
@[simp] theorem State.interruptEntry_irqPending : (s.interruptEntry).irqPending = s.irqPending := rfl
@[simp] theorem State.interruptEntry_irqEnable : (s.interruptEntry).irqEnable = s.irqEnable := rfl
@[simp] theorem State.interruptEntry_history : (s.interruptEntry).history = s.history ++ [.irqEntry] := rfl
@[simp] theorem State.interruptEntry_port : (s.interruptEntry).port = s.port := rfl
@[simp] theorem State.interruptEntry_pins : (s.interruptEntry).pins = s.pins := rfl
@[simp] theorem State.interruptEntry_turns : (s.interruptEntry).turns = s.turns := rfl
@[simp] theorem State.interruptEntry_turnNo : (s.interruptEntry).turnNo = s.turnNo := rfl

/-! ## State.interruptReturn -/

@[simp] theorem State.interruptReturn_config : (s.interruptReturn).config = s.config := rfl
@[simp] theorem State.interruptReturn_tickCounter : (s.interruptReturn).tickCounter = s.tickCounter := rfl
@[simp] theorem State.interruptReturn_phase : (s.interruptReturn).phase = s.phase := rfl
@[simp] theorem State.interruptReturn_mseq : (s.interruptReturn).mseq = s.mseq := rfl
@[simp] theorem State.interruptReturn_iseq : (s.interruptReturn).iseq = .idle := rfl
@[simp] theorem State.interruptReturn_snap : (s.interruptReturn).snap = s.snap := rfl
@[simp] theorem State.interruptReturn_newcmp : (s.interruptReturn).newcmp = s.newcmp := rfl
@[simp] theorem State.interruptReturn_dlyStart : (s.interruptReturn).dlyStart = s.dlyStart := rfl
@[simp] theorem State.interruptReturn_dlyTicks : (s.interruptReturn).dlyTicks = s.dlyTicks := rfl
@[simp] theorem State.interruptReturn_oscReq : (s.interruptReturn).oscReq = s.oscReq := rfl
@[simp] theorem State.interruptReturn_rawCounter : (s.interruptReturn).rawCounter = s.rawCounter := rfl
@[simp] theorem State.interruptReturn_cntLatch : (s.interruptReturn).cntLatch = s.cntLatch := rfl
@[simp] theorem State.interruptReturn_cmp : (s.interruptReturn).cmp = s.cmp := rfl
@[simp] theorem State.interruptReturn_cmpHold : (s.interruptReturn).cmpHold = s.cmpHold := rfl
@[simp] theorem State.interruptReturn_armed : (s.interruptReturn).armed = s.armed := rfl
@[simp] theorem State.interruptReturn_irqPending : (s.interruptReturn).irqPending = s.irqPending := rfl
@[simp] theorem State.interruptReturn_irqEnable : (s.interruptReturn).irqEnable = s.irqEnable := rfl
@[simp] theorem State.interruptReturn_history : (s.interruptReturn).history = s.history ++ [.irqRet] := rfl
@[simp] theorem State.interruptReturn_port : (s.interruptReturn).port = s.port := rfl
@[simp] theorem State.interruptReturn_pins : (s.interruptReturn).pins = s.pins := rfl
@[simp] theorem State.interruptReturn_turns : (s.interruptReturn).turns = s.turns := rfl
@[simp] theorem State.interruptReturn_turnNo : (s.interruptReturn).turnNo = s.turnNo := rfl

/-! ## State.requestOsc -/

@[simp] theorem State.requestOsc_config : (s.requestOsc).config = s.config := rfl
@[simp] theorem State.requestOsc_tickCounter : (s.requestOsc).tickCounter = s.tickCounter := rfl
@[simp] theorem State.requestOsc_phase : (s.requestOsc).phase = s.phase := rfl
@[simp] theorem State.requestOsc_mseq : (s.requestOsc).mseq = .osc := rfl
@[simp] theorem State.requestOsc_iseq : (s.requestOsc).iseq = s.iseq := rfl
@[simp] theorem State.requestOsc_snap : (s.requestOsc).snap = s.snap := rfl
@[simp] theorem State.requestOsc_newcmp : (s.requestOsc).newcmp = s.newcmp := rfl
@[simp] theorem State.requestOsc_dlyStart : (s.requestOsc).dlyStart = s.dlyStart := rfl
@[simp] theorem State.requestOsc_dlyTicks : (s.requestOsc).dlyTicks = s.dlyTicks := rfl
@[simp] theorem State.requestOsc_oscReq : (s.requestOsc).oscReq = true := rfl
@[simp] theorem State.requestOsc_rawCounter : (s.requestOsc).rawCounter = s.rawCounter := rfl
@[simp] theorem State.requestOsc_cntLatch : (s.requestOsc).cntLatch = s.cntLatch := rfl
@[simp] theorem State.requestOsc_cmp : (s.requestOsc).cmp = s.cmp := rfl
@[simp] theorem State.requestOsc_cmpHold : (s.requestOsc).cmpHold = s.cmpHold := rfl
@[simp] theorem State.requestOsc_armed : (s.requestOsc).armed = s.armed := rfl
@[simp] theorem State.requestOsc_irqPending : (s.requestOsc).irqPending = s.irqPending := rfl
@[simp] theorem State.requestOsc_irqEnable : (s.requestOsc).irqEnable = s.irqEnable := rfl
@[simp] theorem State.requestOsc_history : (s.requestOsc).history = s.history := rfl
@[simp] theorem State.requestOsc_port : (s.requestOsc).port = s.port := rfl
@[simp] theorem State.requestOsc_pins : (s.requestOsc).pins = s.pins := rfl
@[simp] theorem State.requestOsc_turns : (s.requestOsc).turns = s.turns := rfl
@[simp] theorem State.requestOsc_turnNo : (s.requestOsc).turnNo = s.turnNo := rfl

/-! ## State.takeReset -/

@[simp] theorem State.takeReset_config (f : ResetFill) : (s.takeReset f).config = s.config := rfl
@[simp] theorem State.takeReset_tickCounter (f : ResetFill) : (s.takeReset f).tickCounter = 0 := rfl
@[simp] theorem State.takeReset_phase (f : ResetFill) : (s.takeReset f).phase = .uninitialized := rfl
@[simp] theorem State.takeReset_mseq (f : ResetFill) : (s.takeReset f).mseq = .idle := rfl
@[simp] theorem State.takeReset_iseq (f : ResetFill) : (s.takeReset f).iseq = .idle := rfl
@[simp] theorem State.takeReset_snap (f : ResetFill) : (s.takeReset f).snap = f.snap := rfl
@[simp] theorem State.takeReset_newcmp (f : ResetFill) : (s.takeReset f).newcmp = f.newcmp := rfl
@[simp] theorem State.takeReset_dlyStart (f : ResetFill) :
    (s.takeReset f).dlyStart = f.dlyStart % 2 ^ s.config.tickW := rfl
@[simp] theorem State.takeReset_dlyTicks (f : ResetFill) :
    (s.takeReset f).dlyTicks = f.dlyTicks % 2 ^ s.config.tickW := rfl
@[simp] theorem State.takeReset_oscReq (f : ResetFill) : (s.takeReset f).oscReq = false := rfl
@[simp] theorem State.takeReset_rawCounter (f : ResetFill) : (s.takeReset f).rawCounter = s.rawCounter := rfl
@[simp] theorem State.takeReset_cntLatch (f : ResetFill) : (s.takeReset f).cntLatch = f.cntLatch := rfl
@[simp] theorem State.takeReset_cmp (f : ResetFill) : (s.takeReset f).cmp = f.cmp := rfl
@[simp] theorem State.takeReset_cmpHold (f : ResetFill) : (s.takeReset f).cmpHold = f.cmpHold := rfl
@[simp] theorem State.takeReset_armed (f : ResetFill) : (s.takeReset f).armed = false := rfl
@[simp] theorem State.takeReset_irqPending (f : ResetFill) : (s.takeReset f).irqPending = false := rfl
@[simp] theorem State.takeReset_irqEnable (f : ResetFill) : (s.takeReset f).irqEnable = false := rfl
@[simp] theorem State.takeReset_history (f : ResetFill) : (s.takeReset f).history = s.history ++ [.reset] := rfl
@[simp] theorem State.takeReset_port (f : ResetFill) : (s.takeReset f).port = none := rfl
@[simp] theorem State.takeReset_pins (f : ResetFill) : (s.takeReset f).pins = s.pins := rfl
@[simp] theorem State.takeReset_turns (f : ResetFill) : (s.takeReset f).turns = s.turns := rfl
@[simp] theorem State.takeReset_turnNo (f : ResetFill) : (s.takeReset f).turnNo = s.turnNo := rfl

/-! ## initEnable -/

@[simp] theorem initEnable_config : (initEnable s).config = s.config := rfl
@[simp] theorem initEnable_tickCounter : (initEnable s).tickCounter = s.tickCounter := rfl
@[simp] theorem initEnable_phase : (initEnable s).phase = .running := rfl
@[simp] theorem initEnable_mseq : (initEnable s).mseq = .idle := rfl
@[simp] theorem initEnable_iseq : (initEnable s).iseq = s.iseq := rfl
@[simp] theorem initEnable_snap : (initEnable s).snap = s.snap := rfl
@[simp] theorem initEnable_newcmp : (initEnable s).newcmp = s.newcmp := rfl
@[simp] theorem initEnable_dlyStart : (initEnable s).dlyStart = s.dlyStart := rfl
@[simp] theorem initEnable_dlyTicks : (initEnable s).dlyTicks = s.dlyTicks := rfl
@[simp] theorem initEnable_oscReq : (initEnable s).oscReq = s.oscReq := rfl
@[simp] theorem initEnable_rawCounter : (initEnable s).rawCounter = s.rawCounter := rfl
@[simp] theorem initEnable_cntLatch : (initEnable s).cntLatch = s.cntLatch := rfl
@[simp] theorem initEnable_cmp : (initEnable s).cmp = s.cmp := rfl
@[simp] theorem initEnable_cmpHold : (initEnable s).cmpHold = s.cmpHold := rfl
@[simp] theorem initEnable_armed : (initEnable s).armed = s.armed := rfl
@[simp] theorem initEnable_irqPending : (initEnable s).irqPending = s.irqPending := rfl
@[simp] theorem initEnable_irqEnable : (initEnable s).irqEnable = true := rfl
@[simp] theorem initEnable_history : (initEnable s).history = s.history ++ [.rsp 0x0 none] := rfl
@[simp] theorem initEnable_port : (initEnable s).port = s.port := rfl
@[simp] theorem initEnable_pins : (initEnable s).pins = s.pins := rfl
@[simp] theorem initEnable_turns : (initEnable s).turns = s.turns := rfl
@[simp] theorem initEnable_turnNo : (initEnable s).turnNo = s.turnNo := rfl

/-! ## tickIncrement -/

@[simp] theorem tickIncrement_config : (tickIncrement s).config = s.config := rfl
@[simp] theorem tickIncrement_tickCounter : (tickIncrement s).tickCounter = tickSucc s.config s.tickCounter := rfl
@[simp] theorem tickIncrement_phase : (tickIncrement s).phase = s.phase := rfl
@[simp] theorem tickIncrement_mseq : (tickIncrement s).mseq = s.mseq := rfl
@[simp] theorem tickIncrement_iseq : (tickIncrement s).iseq = .chk := rfl
@[simp] theorem tickIncrement_snap : (tickIncrement s).snap = s.snap := rfl
@[simp] theorem tickIncrement_newcmp : (tickIncrement s).newcmp = s.newcmp := rfl
@[simp] theorem tickIncrement_dlyStart : (tickIncrement s).dlyStart = s.dlyStart := rfl
@[simp] theorem tickIncrement_dlyTicks : (tickIncrement s).dlyTicks = s.dlyTicks := rfl
@[simp] theorem tickIncrement_oscReq : (tickIncrement s).oscReq = s.oscReq := rfl
@[simp] theorem tickIncrement_rawCounter : (tickIncrement s).rawCounter = s.rawCounter := rfl
@[simp] theorem tickIncrement_cntLatch : (tickIncrement s).cntLatch = s.cntLatch := rfl
@[simp] theorem tickIncrement_cmp : (tickIncrement s).cmp = s.cmp := rfl
@[simp] theorem tickIncrement_cmpHold : (tickIncrement s).cmpHold = s.cmpHold := rfl
@[simp] theorem tickIncrement_armed : (tickIncrement s).armed = s.armed := rfl
@[simp] theorem tickIncrement_irqPending : (tickIncrement s).irqPending = s.irqPending := rfl
@[simp] theorem tickIncrement_irqEnable : (tickIncrement s).irqEnable = s.irqEnable := rfl
@[simp] theorem tickIncrement_history : (tickIncrement s).history = s.history := rfl
@[simp] theorem tickIncrement_port : (tickIncrement s).port = s.port := rfl
@[simp] theorem tickIncrement_pins : (tickIncrement s).pins = s.pins := rfl
@[simp] theorem tickIncrement_turns : (tickIncrement s).turns = s.turns := rfl
@[simp] theorem tickIncrement_turnNo : (tickIncrement s).turnNo = s.turnNo := rfl

/-! ## tickClear -/

@[simp] theorem tickClear_config : (tickClear s).config = s.config := rfl
@[simp] theorem tickClear_tickCounter : (tickClear s).tickCounter = s.tickCounter := rfl
@[simp] theorem tickClear_phase : (tickClear s).phase = s.phase := rfl
@[simp] theorem tickClear_mseq : (tickClear s).mseq = s.mseq := rfl
@[simp] theorem tickClear_iseq : (tickClear s).iseq = .ret := rfl
@[simp] theorem tickClear_snap : (tickClear s).snap = s.snap := rfl
@[simp] theorem tickClear_newcmp : (tickClear s).newcmp = s.newcmp := rfl
@[simp] theorem tickClear_dlyStart : (tickClear s).dlyStart = s.dlyStart := rfl
@[simp] theorem tickClear_dlyTicks : (tickClear s).dlyTicks = s.dlyTicks := rfl
@[simp] theorem tickClear_oscReq : (tickClear s).oscReq = s.oscReq := rfl
@[simp] theorem tickClear_rawCounter : (tickClear s).rawCounter = s.rawCounter := rfl
@[simp] theorem tickClear_cntLatch : (tickClear s).cntLatch = s.cntLatch := rfl
@[simp] theorem tickClear_cmp : (tickClear s).cmp = s.cmp := rfl
@[simp] theorem tickClear_cmpHold : (tickClear s).cmpHold = s.cmpHold := rfl
@[simp] theorem tickClear_armed : (tickClear s).armed = s.armed := rfl
@[simp] theorem tickClear_irqPending : (tickClear s).irqPending = false := rfl
@[simp] theorem tickClear_irqEnable : (tickClear s).irqEnable = s.irqEnable := rfl
@[simp] theorem tickClear_history : (tickClear s).history = s.history := rfl
@[simp] theorem tickClear_port : (tickClear s).port = s.port := rfl
@[simp] theorem tickClear_pins : (tickClear s).pins = s.pins := rfl
@[simp] theorem tickClear_turns : (tickClear s).turns = s.turns := rfl
@[simp] theorem tickClear_turnNo : (tickClear s).turnNo = s.turnNo := rfl

/-! ## delayStart -/

@[simp] theorem delayStart_config (ms : Tick) : (delayStart ms s).config = s.config := rfl
@[simp] theorem delayStart_tickCounter (ms : Tick) : (delayStart ms s).tickCounter = s.tickCounter := rfl
@[simp] theorem delayStart_phase (ms : Tick) : (delayStart ms s).phase = s.phase := rfl
@[simp] theorem delayStart_mseq (ms : Tick) : (delayStart ms s).mseq = .poll := rfl
@[simp] theorem delayStart_iseq (ms : Tick) : (delayStart ms s).iseq = s.iseq := rfl
@[simp] theorem delayStart_snap (ms : Tick) : (delayStart ms s).snap = s.snap := rfl
@[simp] theorem delayStart_newcmp (ms : Tick) : (delayStart ms s).newcmp = s.newcmp := rfl
@[simp] theorem delayStart_dlyStart (ms : Tick) : (delayStart ms s).dlyStart = s.tickCounter := rfl
@[simp] theorem delayStart_dlyTicks (ms : Tick) : (delayStart ms s).dlyTicks = delayTicksOf s.config ms := rfl
@[simp] theorem delayStart_oscReq (ms : Tick) : (delayStart ms s).oscReq = s.oscReq := rfl
@[simp] theorem delayStart_rawCounter (ms : Tick) : (delayStart ms s).rawCounter = s.rawCounter := rfl
@[simp] theorem delayStart_cntLatch (ms : Tick) : (delayStart ms s).cntLatch = s.cntLatch := rfl
@[simp] theorem delayStart_cmp (ms : Tick) : (delayStart ms s).cmp = s.cmp := rfl
@[simp] theorem delayStart_cmpHold (ms : Tick) : (delayStart ms s).cmpHold = s.cmpHold := rfl
@[simp] theorem delayStart_armed (ms : Tick) : (delayStart ms s).armed = s.armed := rfl
@[simp] theorem delayStart_irqPending (ms : Tick) : (delayStart ms s).irqPending = s.irqPending := rfl
@[simp] theorem delayStart_irqEnable (ms : Tick) : (delayStart ms s).irqEnable = s.irqEnable := rfl
@[simp] theorem delayStart_history (ms : Tick) : (delayStart ms s).history = s.history := rfl
@[simp] theorem delayStart_port (ms : Tick) : (delayStart ms s).port = s.port := rfl
@[simp] theorem delayStart_pins (ms : Tick) : (delayStart ms s).pins = s.pins := rfl
@[simp] theorem delayStart_turns (ms : Tick) : (delayStart ms s).turns = s.turns := rfl
@[simp] theorem delayStart_turnNo (ms : Tick) : (delayStart ms s).turnNo = s.turnNo := rfl

/-! ## State.present -/

@[simp] theorem State.present_config (o : Option Nat) : (s.present o).config = s.config := by
  unfold State.present; split <;> rfl
@[simp] theorem State.present_tickCounter (o : Option Nat) : (s.present o).tickCounter = s.tickCounter := by
  unfold State.present; split <;> rfl
@[simp] theorem State.present_phase (o : Option Nat) : (s.present o).phase = s.phase := by
  unfold State.present; split <;> rfl
@[simp] theorem State.present_mseq (o : Option Nat) : (s.present o).mseq = s.mseq := by
  unfold State.present; split <;> rfl
@[simp] theorem State.present_iseq (o : Option Nat) : (s.present o).iseq = s.iseq := by
  unfold State.present; split <;> rfl
@[simp] theorem State.present_snap (o : Option Nat) : (s.present o).snap = s.snap := by
  unfold State.present; split <;> rfl
@[simp] theorem State.present_newcmp (o : Option Nat) : (s.present o).newcmp = s.newcmp := by
  unfold State.present; split <;> rfl
@[simp] theorem State.present_dlyStart (o : Option Nat) : (s.present o).dlyStart = s.dlyStart := by
  unfold State.present; split <;> rfl
@[simp] theorem State.present_dlyTicks (o : Option Nat) : (s.present o).dlyTicks = s.dlyTicks := by
  unfold State.present; split <;> rfl
@[simp] theorem State.present_oscReq (o : Option Nat) : (s.present o).oscReq = s.oscReq := by
  unfold State.present; split <;> rfl
@[simp] theorem State.present_rawCounter (o : Option Nat) : (s.present o).rawCounter = s.rawCounter := by
  unfold State.present; split <;> rfl
@[simp] theorem State.present_cntLatch (o : Option Nat) : (s.present o).cntLatch = s.cntLatch := by
  unfold State.present; split <;> rfl
@[simp] theorem State.present_cmp (o : Option Nat) : (s.present o).cmp = s.cmp := by
  unfold State.present; split <;> rfl
@[simp] theorem State.present_cmpHold (o : Option Nat) : (s.present o).cmpHold = s.cmpHold := by
  unfold State.present; split <;> rfl
@[simp] theorem State.present_armed (o : Option Nat) : (s.present o).armed = s.armed := by
  unfold State.present; split <;> rfl
@[simp] theorem State.present_irqPending (o : Option Nat) : (s.present o).irqPending = s.irqPending := by
  unfold State.present; split <;> rfl
@[simp] theorem State.present_irqEnable (o : Option Nat) : (s.present o).irqEnable = s.irqEnable := by
  unfold State.present; split <;> rfl
@[simp] theorem State.present_history (o : Option Nat) : (s.present o).history = s.history := by
  unfold State.present; split <;> rfl
@[simp] theorem State.present_pins (o : Option Nat) : (s.present o).pins = s.pins := by
  unfold State.present; split <;> rfl
@[simp] theorem State.present_turns (o : Option Nat) : (s.present o).turns = s.turns := by
  unfold State.present; split <;> rfl
@[simp] theorem State.present_turnNo (o : Option Nat) : (s.present o).turnNo = s.turnNo := by
  unfold State.present; split <;> rfl

/-! ## State.counterStep -/

@[simp] theorem State.counterStep_config : (s.counterStep).config = s.config := by
  unfold State.counterStep; split <;> rfl
@[simp] theorem State.counterStep_tickCounter : (s.counterStep).tickCounter = s.tickCounter := by
  unfold State.counterStep; split <;> rfl
@[simp] theorem State.counterStep_phase : (s.counterStep).phase = s.phase := by
  unfold State.counterStep; split <;> rfl
@[simp] theorem State.counterStep_mseq : (s.counterStep).mseq = s.mseq := by
  unfold State.counterStep; split <;> rfl
@[simp] theorem State.counterStep_iseq : (s.counterStep).iseq = s.iseq := by
  unfold State.counterStep; split <;> rfl
@[simp] theorem State.counterStep_snap : (s.counterStep).snap = s.snap := by
  unfold State.counterStep; split <;> rfl
@[simp] theorem State.counterStep_newcmp : (s.counterStep).newcmp = s.newcmp := by
  unfold State.counterStep; split <;> rfl
@[simp] theorem State.counterStep_dlyStart : (s.counterStep).dlyStart = s.dlyStart := by
  unfold State.counterStep; split <;> rfl
@[simp] theorem State.counterStep_dlyTicks : (s.counterStep).dlyTicks = s.dlyTicks := by
  unfold State.counterStep; split <;> rfl
@[simp] theorem State.counterStep_oscReq : (s.counterStep).oscReq = s.oscReq := by
  unfold State.counterStep; split <;> rfl
@[simp] theorem State.counterStep_cntLatch : (s.counterStep).cntLatch = s.cntLatch := by
  unfold State.counterStep; split <;> rfl
@[simp] theorem State.counterStep_cmp : (s.counterStep).cmp = s.cmp := by
  unfold State.counterStep; split <;> rfl
@[simp] theorem State.counterStep_cmpHold : (s.counterStep).cmpHold = s.cmpHold := by
  unfold State.counterStep; split <;> rfl
@[simp] theorem State.counterStep_irqEnable : (s.counterStep).irqEnable = s.irqEnable := by
  unfold State.counterStep; split <;> rfl
@[simp] theorem State.counterStep_port : (s.counterStep).port = s.port := by
  unfold State.counterStep; split <;> rfl
@[simp] theorem State.counterStep_pins : (s.counterStep).pins = s.pins := by
  unfold State.counterStep; split <;> rfl
@[simp] theorem State.counterStep_turns : (s.counterStep).turns = s.turns := by
  unfold State.counterStep; split <;> rfl
@[simp] theorem State.counterStep_turnNo : (s.counterStep).turnNo = s.turnNo := by
  unfold State.counterStep; split <;> rfl

/-! ## State.gotoArm -/

@[simp] theorem State.gotoArm_config (a : ArmPos) : (s.gotoArm a).config = s.config := by
  unfold State.gotoArm; split <;> rfl
@[simp] theorem State.gotoArm_tickCounter (a : ArmPos) : (s.gotoArm a).tickCounter = s.tickCounter := by
  unfold State.gotoArm; split <;> rfl
@[simp] theorem State.gotoArm_phase (a : ArmPos) : (s.gotoArm a).phase = s.phase := by
  unfold State.gotoArm; split <;> rfl
@[simp] theorem State.gotoArm_snap (a : ArmPos) : (s.gotoArm a).snap = s.snap := by
  unfold State.gotoArm; split <;> rfl
@[simp] theorem State.gotoArm_newcmp (a : ArmPos) : (s.gotoArm a).newcmp = s.newcmp := by
  unfold State.gotoArm; split <;> rfl
@[simp] theorem State.gotoArm_dlyStart (a : ArmPos) : (s.gotoArm a).dlyStart = s.dlyStart := by
  unfold State.gotoArm; split <;> rfl
@[simp] theorem State.gotoArm_dlyTicks (a : ArmPos) : (s.gotoArm a).dlyTicks = s.dlyTicks := by
  unfold State.gotoArm; split <;> rfl
@[simp] theorem State.gotoArm_oscReq (a : ArmPos) : (s.gotoArm a).oscReq = s.oscReq := by
  unfold State.gotoArm; split <;> rfl
@[simp] theorem State.gotoArm_rawCounter (a : ArmPos) : (s.gotoArm a).rawCounter = s.rawCounter := by
  unfold State.gotoArm; split <;> rfl
@[simp] theorem State.gotoArm_cntLatch (a : ArmPos) : (s.gotoArm a).cntLatch = s.cntLatch := by
  unfold State.gotoArm; split <;> rfl
@[simp] theorem State.gotoArm_cmp (a : ArmPos) : (s.gotoArm a).cmp = s.cmp := by
  unfold State.gotoArm; split <;> rfl
@[simp] theorem State.gotoArm_cmpHold (a : ArmPos) : (s.gotoArm a).cmpHold = s.cmpHold := by
  unfold State.gotoArm; split <;> rfl
@[simp] theorem State.gotoArm_armed (a : ArmPos) : (s.gotoArm a).armed = s.armed := by
  unfold State.gotoArm; split <;> rfl
@[simp] theorem State.gotoArm_irqPending (a : ArmPos) : (s.gotoArm a).irqPending = s.irqPending := by
  unfold State.gotoArm; split <;> rfl
@[simp] theorem State.gotoArm_irqEnable (a : ArmPos) : (s.gotoArm a).irqEnable = s.irqEnable := by
  unfold State.gotoArm; split <;> rfl
@[simp] theorem State.gotoArm_history (a : ArmPos) : (s.gotoArm a).history = s.history := by
  unfold State.gotoArm; split <;> rfl
@[simp] theorem State.gotoArm_port (a : ArmPos) : (s.gotoArm a).port = s.port := by
  unfold State.gotoArm; split <;> rfl
@[simp] theorem State.gotoArm_pins (a : ArmPos) : (s.gotoArm a).pins = s.pins := by
  unfold State.gotoArm; split <;> rfl
@[simp] theorem State.gotoArm_turns (a : ArmPos) : (s.gotoArm a).turns = s.turns := by
  unfold State.gotoArm; split <;> rfl
@[simp] theorem State.gotoArm_turnNo (a : ArmPos) : (s.gotoArm a).turnNo = s.turnNo := by
  unfold State.gotoArm; split <;> rfl

/-! ## State.leaveArm -/

@[simp] theorem State.leaveArm_config : (s.leaveArm).config = s.config := by
  unfold State.leaveArm; split <;> rfl
@[simp] theorem State.leaveArm_tickCounter : (s.leaveArm).tickCounter = s.tickCounter := by
  unfold State.leaveArm; split <;> rfl
@[simp] theorem State.leaveArm_phase : (s.leaveArm).phase = s.phase := by
  unfold State.leaveArm; split <;> rfl
@[simp] theorem State.leaveArm_snap : (s.leaveArm).snap = s.snap := by
  unfold State.leaveArm; split <;> rfl
@[simp] theorem State.leaveArm_newcmp : (s.leaveArm).newcmp = s.newcmp := by
  unfold State.leaveArm; split <;> rfl
@[simp] theorem State.leaveArm_dlyStart : (s.leaveArm).dlyStart = s.dlyStart := by
  unfold State.leaveArm; split <;> rfl
@[simp] theorem State.leaveArm_dlyTicks : (s.leaveArm).dlyTicks = s.dlyTicks := by
  unfold State.leaveArm; split <;> rfl
@[simp] theorem State.leaveArm_oscReq : (s.leaveArm).oscReq = s.oscReq := by
  unfold State.leaveArm; split <;> rfl
@[simp] theorem State.leaveArm_rawCounter : (s.leaveArm).rawCounter = s.rawCounter := by
  unfold State.leaveArm; split <;> rfl
@[simp] theorem State.leaveArm_cntLatch : (s.leaveArm).cntLatch = s.cntLatch := by
  unfold State.leaveArm; split <;> rfl
@[simp] theorem State.leaveArm_cmp : (s.leaveArm).cmp = s.cmp := by
  unfold State.leaveArm; split <;> rfl
@[simp] theorem State.leaveArm_cmpHold : (s.leaveArm).cmpHold = s.cmpHold := by
  unfold State.leaveArm; split <;> rfl
@[simp] theorem State.leaveArm_armed : (s.leaveArm).armed = s.armed := by
  unfold State.leaveArm; split <;> rfl
@[simp] theorem State.leaveArm_irqPending : (s.leaveArm).irqPending = s.irqPending := by
  unfold State.leaveArm; split <;> rfl
@[simp] theorem State.leaveArm_irqEnable : (s.leaveArm).irqEnable = s.irqEnable := by
  unfold State.leaveArm; split <;> rfl
@[simp] theorem State.leaveArm_history : (s.leaveArm).history = s.history := by
  unfold State.leaveArm; split <;> rfl
@[simp] theorem State.leaveArm_port : (s.leaveArm).port = s.port := by
  unfold State.leaveArm; split <;> rfl
@[simp] theorem State.leaveArm_pins : (s.leaveArm).pins = s.pins := by
  unfold State.leaveArm; split <;> rfl
@[simp] theorem State.leaveArm_turns : (s.leaveArm).turns = s.turns := by
  unfold State.leaveArm; split <;> rfl
@[simp] theorem State.leaveArm_turnNo : (s.leaveArm).turnNo = s.turnNo := by
  unfold State.leaveArm; split <;> rfl

/-! ## State.pollOsc -/

@[simp] theorem State.pollOsc_config : (s.pollOsc).config = s.config := by
  unfold State.pollOsc; split <;> rfl
@[simp] theorem State.pollOsc_tickCounter : (s.pollOsc).tickCounter = s.tickCounter := by
  unfold State.pollOsc; split <;> rfl
@[simp] theorem State.pollOsc_phase : (s.pollOsc).phase = s.phase := by
  unfold State.pollOsc; split <;> rfl
@[simp] theorem State.pollOsc_iseq : (s.pollOsc).iseq = s.iseq := by
  unfold State.pollOsc; split <;> rfl
@[simp] theorem State.pollOsc_snap : (s.pollOsc).snap = s.snap := by
  unfold State.pollOsc; split <;> rfl
@[simp] theorem State.pollOsc_newcmp : (s.pollOsc).newcmp = s.newcmp := by
  unfold State.pollOsc; split <;> rfl
@[simp] theorem State.pollOsc_dlyStart : (s.pollOsc).dlyStart = s.dlyStart := by
  unfold State.pollOsc; split <;> rfl
@[simp] theorem State.pollOsc_dlyTicks : (s.pollOsc).dlyTicks = s.dlyTicks := by
  unfold State.pollOsc; split <;> rfl
@[simp] theorem State.pollOsc_oscReq : (s.pollOsc).oscReq = s.oscReq := by
  unfold State.pollOsc; split <;> rfl
@[simp] theorem State.pollOsc_rawCounter : (s.pollOsc).rawCounter = s.rawCounter := by
  unfold State.pollOsc; split <;> rfl
@[simp] theorem State.pollOsc_cntLatch : (s.pollOsc).cntLatch = s.cntLatch := by
  unfold State.pollOsc; split <;> rfl
@[simp] theorem State.pollOsc_cmp : (s.pollOsc).cmp = s.cmp := by
  unfold State.pollOsc; split <;> rfl
@[simp] theorem State.pollOsc_cmpHold : (s.pollOsc).cmpHold = s.cmpHold := by
  unfold State.pollOsc; split <;> rfl
@[simp] theorem State.pollOsc_armed : (s.pollOsc).armed = s.armed := by
  unfold State.pollOsc; split <;> rfl
@[simp] theorem State.pollOsc_irqPending : (s.pollOsc).irqPending = s.irqPending := by
  unfold State.pollOsc; split <;> rfl
@[simp] theorem State.pollOsc_irqEnable : (s.pollOsc).irqEnable = s.irqEnable := by
  unfold State.pollOsc; split <;> rfl
@[simp] theorem State.pollOsc_history : (s.pollOsc).history = s.history := by
  unfold State.pollOsc; split <;> rfl
@[simp] theorem State.pollOsc_port : (s.pollOsc).port = s.port := by
  unfold State.pollOsc; split <;> rfl
@[simp] theorem State.pollOsc_pins : (s.pollOsc).pins = s.pins := by
  unfold State.pollOsc; split <;> rfl
@[simp] theorem State.pollOsc_turns : (s.pollOsc).turns = s.turns := by
  unfold State.pollOsc; split <;> rfl
@[simp] theorem State.pollOsc_turnNo : (s.pollOsc).turnNo = s.turnNo := by
  unfold State.pollOsc; split <;> rfl

/-! ## tickCheck -/

@[simp] theorem tickCheck_config : (tickCheck s).config = s.config := by
  unfold tickCheck; split <;> rfl
@[simp] theorem tickCheck_tickCounter : (tickCheck s).tickCounter = s.tickCounter := by
  unfold tickCheck; split <;> rfl
@[simp] theorem tickCheck_phase : (tickCheck s).phase = s.phase := by
  unfold tickCheck; split <;> rfl
@[simp] theorem tickCheck_mseq : (tickCheck s).mseq = s.mseq := by
  unfold tickCheck; split <;> rfl
@[simp] theorem tickCheck_snap : (tickCheck s).snap = s.snap := by
  unfold tickCheck; split <;> rfl
@[simp] theorem tickCheck_newcmp : (tickCheck s).newcmp = s.newcmp := by
  unfold tickCheck; split <;> rfl
@[simp] theorem tickCheck_dlyStart : (tickCheck s).dlyStart = s.dlyStart := by
  unfold tickCheck; split <;> rfl
@[simp] theorem tickCheck_dlyTicks : (tickCheck s).dlyTicks = s.dlyTicks := by
  unfold tickCheck; split <;> rfl
@[simp] theorem tickCheck_oscReq : (tickCheck s).oscReq = s.oscReq := by
  unfold tickCheck; split <;> rfl
@[simp] theorem tickCheck_rawCounter : (tickCheck s).rawCounter = s.rawCounter := by
  unfold tickCheck; split <;> rfl
@[simp] theorem tickCheck_cntLatch : (tickCheck s).cntLatch = s.cntLatch := by
  unfold tickCheck; split <;> rfl
@[simp] theorem tickCheck_cmp : (tickCheck s).cmp = s.cmp := by
  unfold tickCheck; split <;> rfl
@[simp] theorem tickCheck_cmpHold : (tickCheck s).cmpHold = s.cmpHold := by
  unfold tickCheck; split <;> rfl
@[simp] theorem tickCheck_armed : (tickCheck s).armed = s.armed := by
  unfold tickCheck; split <;> rfl
@[simp] theorem tickCheck_irqPending : (tickCheck s).irqPending = s.irqPending := by
  unfold tickCheck; split <;> rfl
@[simp] theorem tickCheck_irqEnable : (tickCheck s).irqEnable = s.irqEnable := by
  unfold tickCheck; split <;> rfl
@[simp] theorem tickCheck_port : (tickCheck s).port = s.port := by
  unfold tickCheck; split <;> rfl
@[simp] theorem tickCheck_pins : (tickCheck s).pins = s.pins := by
  unfold tickCheck; split <;> rfl
@[simp] theorem tickCheck_turns : (tickCheck s).turns = s.turns := by
  unfold tickCheck; split <;> rfl
@[simp] theorem tickCheck_turnNo : (tickCheck s).turnNo = s.turnNo := by
  unfold tickCheck; split <;> rfl

/-! ## delayPoll -/

@[simp] theorem delayPoll_config : (delayPoll s).config = s.config := by
  unfold delayPoll; split <;> rfl
@[simp] theorem delayPoll_tickCounter : (delayPoll s).tickCounter = s.tickCounter := by
  unfold delayPoll; split <;> rfl
@[simp] theorem delayPoll_phase : (delayPoll s).phase = s.phase := by
  unfold delayPoll; split <;> rfl
@[simp] theorem delayPoll_iseq : (delayPoll s).iseq = s.iseq := by
  unfold delayPoll; split <;> rfl
@[simp] theorem delayPoll_snap : (delayPoll s).snap = s.snap := by
  unfold delayPoll; split <;> rfl
@[simp] theorem delayPoll_newcmp : (delayPoll s).newcmp = s.newcmp := by
  unfold delayPoll; split <;> rfl
@[simp] theorem delayPoll_dlyStart : (delayPoll s).dlyStart = s.dlyStart := by
  unfold delayPoll; split <;> rfl
@[simp] theorem delayPoll_dlyTicks : (delayPoll s).dlyTicks = s.dlyTicks := by
  unfold delayPoll; split <;> rfl
@[simp] theorem delayPoll_oscReq : (delayPoll s).oscReq = s.oscReq := by
  unfold delayPoll; split <;> rfl
@[simp] theorem delayPoll_rawCounter : (delayPoll s).rawCounter = s.rawCounter := by
  unfold delayPoll; split <;> rfl
@[simp] theorem delayPoll_cntLatch : (delayPoll s).cntLatch = s.cntLatch := by
  unfold delayPoll; split <;> rfl
@[simp] theorem delayPoll_cmp : (delayPoll s).cmp = s.cmp := by
  unfold delayPoll; split <;> rfl
@[simp] theorem delayPoll_cmpHold : (delayPoll s).cmpHold = s.cmpHold := by
  unfold delayPoll; split <;> rfl
@[simp] theorem delayPoll_armed : (delayPoll s).armed = s.armed := by
  unfold delayPoll; split <;> rfl
@[simp] theorem delayPoll_irqPending : (delayPoll s).irqPending = s.irqPending := by
  unfold delayPoll; split <;> rfl
@[simp] theorem delayPoll_irqEnable : (delayPoll s).irqEnable = s.irqEnable := by
  unfold delayPoll; split <;> rfl
@[simp] theorem delayPoll_port : (delayPoll s).port = s.port := by
  unfold delayPoll; split <;> rfl
@[simp] theorem delayPoll_pins : (delayPoll s).pins = s.pins := by
  unfold delayPoll; split <;> rfl
@[simp] theorem delayPoll_turns : (delayPoll s).turns = s.turns := by
  unfold delayPoll; split <;> rfl
@[simp] theorem delayPoll_turnNo : (delayPoll s).turnNo = s.turnNo := by
  unfold delayPoll; split <;> rfl

end Sys2Proof.Machine
end

