-- ==== Sys2Proof/Laws/Ops.lean ====
section
/-! SUPPORT. For each shared operation, what it can do, said once: the later proofs cite these instead of unfolding. -/

namespace Sys2Proof.Machine

variable (s : State)

/-! ## The timer-side register space (R65) -/

@[simp] theorem memRead_cnt0 :
    s.memRead 0 = .ok (lowByte s.rawCounter, { s with cntLatch := upperHalf s.rawCounter }) := rfl
@[simp] theorem memRead_cnt1 : s.memRead 1 = .ok (halfLow s.cntLatch, s) := rfl
@[simp] theorem memRead_cnt2 : s.memRead 2 = .ok (halfHigh s.cntLatch, s) := rfl
@[simp] theorem memRead_tstat : s.memRead 6 = .ok (if s.pins.loadReady then 1 else 0, s) := rfl
@[simp] theorem memWrite_cmp0 (b : Byte) :
    s.memWrite 3 b = .ok { s with cmp := adoptedValue s.cmpHold b, armed := true,
                                  history := s.history ++ [.adopt (adoptedValue s.cmpHold b)] } := rfl
@[simp] theorem memWrite_cmp1 (b : Byte) : s.memWrite 4 b = .ok { s with cmpHold := setHalfLow s.cmpHold b } := rfl
@[simp] theorem memWrite_cmp2 (b : Byte) : s.memWrite 5 b = .ok { s with cmpHold := setHalfHigh s.cmpHold b } := rfl

/-! ## The turns and the command port -/

theorem takeTurn_cons {t : Turn} {ts : List Turn} (h : s.turns = t :: ts) :
    s.takeTurn = (t, { s with turns := ts }) := by simp [State.takeTurn, h]

/-- Taking a turn changes only the model's own list of turns. -/
theorem takeTurn_cases :
    (∃ t ts, s.turns = t :: ts ∧ s.takeTurn = (t, { s with turns := ts })) ∨
      (s.turns = [] ∧ s.takeTurn = (Config.freeTurn s.turnNo, { s with turnNo := s.turnNo + 1 })) := by
  cases h : s.turns with
  | nil => exact .inr ⟨rfl, by simp [State.takeTurn, h]⟩
  | cons t ts => exact .inl ⟨t, ts, rfl, takeTurn_cons s h⟩

theorem takeTurn_eq : s.takeTurn.2 = { s with turns := s.takeTurn.2.turns, turnNo := s.takeTurn.2.turnNo } := by
  rcases takeTurn_cases s with ⟨t, ts, -, h⟩ | ⟨-, h⟩ <;> rw [h]

/-- A word on the port stays, and an offer reaches an empty port as wide as the port is (R75). -/
theorem present_port (o : Option Nat) :
    (s.present o).port = s.port.or (o.map (· % 2 ^ (s.config.tickW + 4))) := by
  unfold State.present; cases h : s.port <;> simp [h]

theorem present_eq (o : Option Nat) : s.present o = { s with port := (s.present o).port } := by
  unfold State.present; cases h : s.port <;> simp

/-! ## The COUNTER step (R142) -/

theorem counterStep_of_match (h : Matches s.armed (counterSucc s.rawCounter) s.cmp) :
    s.counterStep = { s with rawCounter := counterSucc s.rawCounter, irqPending := true, armed := false,
                             history := s.history ++ [.matched] } := if_pos h

theorem counterStep_of_no_match (h : ¬Matches s.armed (counterSucc s.rawCounter) s.cmp) :
    s.counterStep = { s with rawCounter := counterSucc s.rawCounter } := if_neg h

@[simp] theorem counterStep_rawCounter : s.counterStep.rawCounter = counterSucc s.rawCounter := by
  unfold State.counterStep; split <;> rfl

theorem iterate_counterStep_rawCounter (k : Nat) :
    (State.counterStep^[k] s).rawCounter = s.rawCounter + BitVec.ofNat 24 k := by
  induction k with
  | zero => simp
  | succ k ih =>
    rw [Function.iterate_succ_apply', counterStep_rawCounter, ih, counterSucc, BitVec.add_assoc]
    congr 1
    apply BitVec.eq_of_toNat_eq; simp

/-! ## The micro-steps of ARM_NEXT_COMPARE (R91, R92) -/

@[simp] theorem armMicroStep_a0 :
    s.armMicroStep .a0 = .next ({ s with cntLatch := upperHalf s.rawCounter,
                                         snap := setLowByte s.snap (lowByte s.rawCounter) }.gotoArm .a1) := rfl
@[simp] theorem armMicroStep_a1 :
    s.armMicroStep .a1 = .next ({ s with snap := setMidByte s.snap (halfLow s.cntLatch) }.gotoArm .a2) := rfl
@[simp] theorem armMicroStep_a2 :
    s.armMicroStep .a2 = .next ({ s with snap := setHighByte s.snap (halfHigh s.cntLatch) }.gotoArm .a3) := rfl
@[simp] theorem armMicroStep_a3 :
    s.armMicroStep .a3 = .next ({ s with newcmp := reloadValue s.snap (intervalWord s.config) }.gotoArm .a4) := rfl
@[simp] theorem armMicroStep_a4 :
    s.armMicroStep .a4 = .next (if s.pins.loadReady then s.gotoArm .a5 else s) := by
  show s.pollLoadReady = _
  unfold State.pollLoadReady
  rw [memRead_tstat]
  cases s.pins.loadReady <;> rfl
@[simp] theorem armMicroStep_a5 :
    s.armMicroStep .a5 = .next ({ s with cmpHold := setHalfHigh s.cmpHold (highByte s.newcmp) }.gotoArm .a6) := rfl
@[simp] theorem armMicroStep_a6 :
    s.armMicroStep .a6 = .next ({ s with cmpHold := setHalfLow s.cmpHold (midByte s.newcmp) }.gotoArm .a7) := rfl
@[simp] theorem armMicroStep_a7 :
    s.armMicroStep .a7 = .next (State.leaveArm
      { s with cmp := adoptedValue s.cmpHold (lowByte s.newcmp), armed := true,
               history := s.history ++ [.adopt (adoptedValue s.cmpHold (lowByte s.newcmp))] }) := rfl

/-- Every micro-step of the reload answers a next state. -/
theorem armMicroStep_next (a : ArmPos) : ∃ t, s.armMicroStep a = .next t := by cases a <;> simp

/-- No micro-step of the reload touches the command port. -/
theorem armMicroStep_port {s t : State} {a : ArmPos} (h : s.armMicroStep a = .next t) : t.port = s.port := by
  cases a <;> simp at h <;> subst h <;> first | simp | (split <;> simp)

theorem gotoArm_of_inIsr (h : s.InIsr) (a : ArmPos) : s.gotoArm a = { s with iseq := .arm a } := if_pos h
theorem gotoArm_of_mainline (h : s.iseq = .idle) (a : ArmPos) : s.gotoArm a = { s with mseq := .arm a } :=
  if_neg (by simp [h])
theorem leaveArm_of_inIsr (h : s.InIsr) : s.leaveArm = { s with iseq := .inc } := if_pos h
theorem leaveArm_of_mainline (h : s.iseq = .idle) : s.leaveArm = { s with mseq := .en } := if_neg (by simp [h])

/-- After A7 the compare value is the value computed at A3, all 24 bits at once (R54, R92). -/
theorem adopted_newcmp (v : Word24) (h : Half) :
    adoptedValue (setHalfLow (setHalfHigh h (highByte v)) (midByte v)) (lowByte v) = v := by
  rw [show setHalfLow (setHalfHigh h (highByte v)) (midByte v) = upperHalf v from half_ext (by simp) (by simp)]
  simp

end Sys2Proof.Machine
end

