-- ==== Sys2Proof/Laws/PerInstr.lean ====
section
/-! SUPPORT. What holds of every operation as syntax, one lemma per constructor: its canonical word fits the
`4 + TICK_W` bits of a command word (spec/30_encoding.md R70). -/

namespace Sys2Proof.Laws

theorem commandWord_lt (c : Config) (op arg : Nat) : c.commandWord op arg < 2 ^ (c.tickW + 4) := by
  unfold Config.commandWord
  have h1 : op % 16 ≤ 15 := by omega
  have h2 := Nat.mod_lt arg (Nat.two_pow_pos c.tickW)
  have h3 := Nat.mul_le_mul_right (2 ^ c.tickW) h1
  rw [Nat.pow_add]
  omega

/-- The word of a well-formed operation fits a command word. -/
def EncodeFits.Statement (i : Instr) : Prop :=
  ∀ c : Config, i.wellFormed c = true → encode c i < 2 ^ (c.tickW + 4)

theorem EncodeFits.clockInit : EncodeFits.Statement .clockInit := fun c _ => commandWord_lt c _ _
theorem EncodeFits.clockTime : EncodeFits.Statement .clockTime := fun c _ => commandWord_lt c _ _
theorem EncodeFits.clockSeconds : EncodeFits.Statement .clockSeconds := fun c _ => commandWord_lt c _ _
theorem EncodeFits.clockDelay (ms : Tick) : EncodeFits.Statement (.clockDelay ms) := fun c _ => commandWord_lt c _ _
theorem EncodeFits.initClockSource : EncodeFits.Statement .initClockSource := fun c _ => commandWord_lt c _ _
theorem EncodeFits.readRawCounter : EncodeFits.Statement .readRawCounter := fun c _ => commandWord_lt c _ _
theorem EncodeFits.armNextCompare : EncodeFits.Statement .armNextCompare := fun c _ => commandWord_lt c _ _
theorem EncodeFits.tickIsr : EncodeFits.Statement .tickIsr := fun c _ => commandWord_lt c _ _

end Sys2Proof.Laws
end

