-- ==== Sys2Proof/Laws/Step.lean ====
section
/-! SUPPORT. What a step can do, said once: every next state is one of the micro-steps of `Transition`, from the state in
which the turn's inputs are latched. Every invariant is derived from this. -/

namespace Sys2Proof.Machine

/-- The micro-steps of the machine: `Transition t s s'` holds of a state `s` in which the inputs of turn `t` are
latched. -/
inductive Transition : Turn → State → State → Prop
  | counter (s : State) : Transition .counter s s.counterStep
  | reset (f : ResetFill) (s : State) : Transition (.reset f) s (s.takeReset f)
  /-- MAINLINE is frozen, or has no word to accept (R44, R75). -/
  | idle (o : Option Nat) (p : Pins) (s : State) (h : s.InIsr ∨ s.mseq = .idle ∧ s.port = none) :
      Transition (.mainline o p) s s
  | acceptInit (o : Option Nat) (p : Pins) (s : State) (cw : Nat) (hi : s.iseq = .idle) (hm : s.mseq = .idle)
      (hp : s.port = some cw) (hd : decodeCommand s.config cw = .ok .clockInit) (hph : s.phase = .uninitialized) :
      Transition (.mainline o p) s (s.accept cw).requestOsc
  | acceptTime (o : Option Nat) (p : Pins) (s : State) (cw : Nat) (hi : s.iseq = .idle) (hm : s.mseq = .idle)
      (hp : s.port = some cw) (hd : decodeCommand s.config cw = .ok .clockTime) (hph : s.phase = .running) :
      Transition (.mainline o p) s ((s.accept cw).respond 0x1 (some s.tickCounter))
  | acceptSeconds (o : Option Nat) (p : Pins) (s : State) (cw : Nat) (hi : s.iseq = .idle) (hm : s.mseq = .idle)
      (hp : s.port = some cw) (hd : decodeCommand s.config cw = .ok .clockSeconds) (hph : s.phase = .running) :
      Transition (.mainline o p) s ((s.accept cw).respond 0x2 (some (secondsOf s.config s.tickCounter)))
  | acceptDelay (o : Option Nat) (p : Pins) (s : State) (cw ms : Nat) (hi : s.iseq = .idle) (hm : s.mseq = .idle)
      (hp : s.port = some cw) (hd : decodeCommand s.config cw = .ok (.clockDelay ms)) (hph : s.phase = .running) :
      Transition (.mainline o p) s (delayStart ms (s.accept cw))
  | osc (o : Option Nat) (p : Pins) (s : State) (hi : s.iseq = .idle) (hm : s.mseq = .osc) :
      Transition (.mainline o p) s s.pollOsc
  | mainlineArm (o : Option Nat) (p : Pins) (s s' : State) (a : ArmPos) (hi : s.iseq = .idle) (hm : s.mseq = .arm a)
      (h : s.armMicroStep a = .next s') : Transition (.mainline o p) s s'
  | enable (o : Option Nat) (p : Pins) (s : State) (hi : s.iseq = .idle) (hm : s.mseq = .en) :
      Transition (.mainline o p) s (initEnable s)
  | poll (o : Option Nat) (p : Pins) (s : State) (hi : s.iseq = .idle) (hm : s.mseq = .poll) :
      Transition (.mainline o p) s (delayPoll s)
  /-- ISR has no step: no pass is in progress and entry is not enabled (R144). -/
  | noEntry (p : Pins) (s : State) (hi : s.iseq = .idle) (h : ¬s.EntryEnabled) : Transition (.isr p) s s
  | entry (p : Pins) (s : State) (h : s.EntryEnabled) : Transition (.isr p) s s.interruptEntry
  | isrArm (p : Pins) (s s' : State) (a : ArmPos) (hi : s.iseq = .arm a) (h : s.armMicroStep a = .next s') :
      Transition (.isr p) s s'
  | inc (p : Pins) (s : State) (hi : s.iseq = .inc) : Transition (.isr p) s (tickIncrement s)
  | chk (p : Pins) (s : State) (hi : s.iseq = .chk) : Transition (.isr p) s (tickCheck s)
  | clr (p : Pins) (s : State) (hi : s.iseq = .clr) : Transition (.isr p) s (tickClear s)
  | ret (p : Pins) (s : State) (hi : s.iseq = .ret) : Transition (.isr p) s s.interruptReturn

/-- The state in which a turn's inputs are latched. -/
def State.latchTurn (s : State) : Turn → State
  | .counter => s
  | .mainline o p => (s.latchPins p).present o
  | .isr p => s.latchPins p
  | .reset _ => s

/-- A decoded command is one a requester may present (R80). -/
theorem isCommand_of_decodeCommand {c : Config} {cw : Nat} {i : Instr} (h : decodeCommand c cw = .ok i) :
    i.isCommand = true := by
  unfold decodeCommand at h
  split at h
  · split at h
    · split at h
      · cases h; assumption
      · cases h
    · cases h
  · cases h

/-- At a position of the reload, the operation in progress takes that micro-step (R91, R92). -/
theorem exec_arm_operation {s : State} {a : ArmPos} (h : s.armPos = some a) : exec a.operation s = s.armMicroStep a := by
  cases a <;> simp [exec, ArmPos.operation, execReadRawCounter, execArmNextCompare, h]

theorem armPos_of_isr {s : State} {a : ArmPos} (h : s.iseq = .arm a) : s.armPos = some a := by
  simp [State.armPos, h, ISeq.armPos]

theorem armPos_of_mainline {s : State} {a : ArmPos} (hi : s.iseq = .idle) (h : s.mseq = .arm a) :
    s.armPos = some a := by
  simp [State.armPos, hi, h, MSeq.armPos]

theorem acceptCommand_cases {s t : State} {o : Option Nat} {p : Pins} {cw : Nat} (hi : s.iseq = .idle)
    (hm : s.mseq = .idle) (hp : s.port = some cw) (h : acceptCommand s cw = .next t) :
    Transition (.mainline o p) s t := by
  unfold acceptCommand at h
  cases hd : decodeCommand s.config cw with
  | error e => simp [hd] at h
  | ok i =>
    simp only [hd] at h
    have hc := isCommand_of_decodeCommand hd
    cases i with
    | clockInit =>
      cases hph : s.phase <;> simp [exec, execClockInit, hi, hm, hph] at h
      exact h ▸ .acceptInit o p s cw hi hm hp hd hph
    | clockTime =>
      cases hph : s.phase <;> simp [exec, execClockTime, State.CanAccept, hi, hm, hph] at h
      exact h ▸ .acceptTime o p s cw hi hm hp hd hph
    | clockSeconds =>
      cases hph : s.phase <;> simp [exec, execClockSeconds, State.CanAccept, hi, hm, hph] at h
      exact h ▸ .acceptSeconds o p s cw hi hm hp hd hph
    | clockDelay ms =>
      cases hph : s.phase <;> simp [exec, execClockDelay, hi, hm, hph] at h
      exact h ▸ .acceptDelay o p s cw ms hi hm hp hd hph
    | initClockSource => cases hc
    | readRawCounter => cases hc
    | armNextCompare => cases hc
    | tickIsr => cases hc

theorem mainlineStep_cases {s t : State} (o : Option Nat) (p : Pins) (h : mainlineStep s = .next t) :
    Transition (.mainline o p) s t := by
  unfold mainlineStep at h
  by_cases hi : s.iseq = .idle
  · simp only [State.InIsr, hi, ne_eq, not_true_eq_false, if_false] at h
    cases hm : s.mseq with
    | idle =>
      simp only [hm, MSeq.operation] at h
      cases hp : s.port with
      | none => simp only [hp, Host.Outcome.next.injEq] at h; exact h ▸ .idle o p s (.inr ⟨hm, hp⟩)
      | some cw => simp only [hp] at h; exact acceptCommand_cases hi hm hp h
    | osc =>
      simp [hm, MSeq.operation, exec, execInitClockSource, hi] at h
      exact h ▸ .osc o p s hi hm
    | arm a =>
      simp only [hm, MSeq.operation, exec_arm_operation (armPos_of_mainline hi hm)] at h
      exact .mainlineArm o p s t a hi hm h
    | en =>
      simp [hm, MSeq.operation, exec, execClockInit, hi] at h
      exact h ▸ .enable o p s hi hm
    | poll =>
      simp [hm, MSeq.operation, exec, execClockDelay, hi] at h
      exact h ▸ .poll o p s hi hm
  · rw [if_pos hi] at h
    cases h
    exact .idle o p s (.inl hi)

theorem isrStep_cases {s t : State} (p : Pins) (h : isrStep s = .next t) : Transition (.isr p) s t := by
  unfold isrStep at h
  cases hi : s.iseq with
  | idle =>
    by_cases he : s.EntryEnabled
    · rw [if_pos (.inr he)] at h
      simp only [hi, ISeq.operation, exec, execTickIsr, if_pos he, Host.Outcome.next.injEq] at h
      exact h ▸ .entry p s he
    · rw [if_neg (by simp [hi, he])] at h
      cases h
      exact .noEntry p s hi he
  | arm a =>
    rw [if_pos (.inl (by simp [hi]))] at h
    simp only [hi, ISeq.operation, exec_arm_operation (armPos_of_isr hi)] at h
    exact .isrArm p s t a hi h
  | inc => simp [hi, ISeq.operation, exec, execTickIsr] at h; exact h ▸ .inc p s hi
  | chk => simp [hi, ISeq.operation, exec, execTickIsr] at h; exact h ▸ .chk p s hi
  | clr => simp [hi, ISeq.operation, exec, execTickIsr] at h; exact h ▸ .clr p s hi
  | ret => simp [hi, ISeq.operation, exec, execTickIsr] at h; exact h ▸ .ret p s hi

theorem runTurn_cases {s s' : State} (t : Turn) (h : runTurn t s = .next s') : Transition t (s.latchTurn t) s' := by
  cases t with
  | counter => cases h; exact .counter s
  | mainline o p => exact mainlineStep_cases o p h
  | isr p => exact isrStep_cases p h
  | reset f => cases h; exact .reset f s

/-- Latching a turn's inputs changes only the pins and the port. -/
theorem latchTurn_eq (s : State) (t : Turn) :
    s.latchTurn t = { s with pins := (s.latchTurn t).pins, port := (s.latchTurn t).port } := by
  cases t with
  | counter => rfl
  | mainline o p => simp only [State.latchTurn]; rw [present_eq]; rfl
  | isr p => rfl
  | reset f => rfl

/-- A step in a legal configuration is the next turn. -/
theorem step_of_legal {s : State} (h : s.config.Legal) : step s = runTurn s.nextTurn s.takeTurn.2 := if_pos h

/-- A run over a listed turn that answers a next state goes on from there. -/
theorem run_turn {s s' : State} {t : Turn} {ts : List Turn} (k : Nat) (hl : s.config.Legal) (ht : s.turns = t :: ts)
    (h : runTurn t { s with turns := ts } = .next s') : Host.Core.run core (k + 1) s = Host.Core.run core k s' := by
  have hs : step s = .next s' := by rw [step_of_legal hl, State.nextTurn, takeTurn_cons s ht, h]
  have hs' : core.step s = .next s' := hs
  simp only [Host.Core.run, hs']

/-- What a step can do: the configuration is legal, the next turn's inputs are latched, and one micro-step of its agent
is taken. -/
theorem step_cases {s s' : State} (h : step s = .next s') :
    s.config.Legal ∧ ∃ s₀ : State,
      s₀ = s.takeTurn.2.latchTurn s.nextTurn ∧
      s₀ = { s with pins := s₀.pins, port := s₀.port, turns := s₀.turns, turnNo := s₀.turnNo } ∧
      Transition s.nextTurn s₀ s' := by
  unfold step at h
  by_cases hl : s.config.Legal
  · rw [if_pos hl] at h
    refine ⟨hl, _, rfl, ?_, runTurn_cases _ h⟩
    rw [latchTurn_eq, takeTurn_eq]
  · rw [if_neg hl] at h; cases h

end Sys2Proof.Machine
end

