-- ==== Sys2Proof/Tests/Slice0.lean ====
section
/-! SUPPORT. Tests: the ill-formed operations and configurations the checks refuse, decodings of words written out from
spec/30_encoding.md, single micro-steps with the values of spec/95_test_vectors.md, and a witness of the hypotheses of
each statement of Certificates/Slice0/Obligations.lean. -/

namespace Sys2Proof.Tests

open Sys2Proof Sys2Proof.Machine

/-! ## Helper states (configuration A) -/

/-- A running machine at these positions, with this `TickCounter`. -/
def running (m : MSeq) (i : ISeq) (tick : Tick) : State :=
  { State.reset with phase := .running, irqEnable := true, oscReq := true, mseq := m, iseq := i, tickCounter := tick }

/-- A machine in which CLOCK_INIT stands at this position. -/
def starting (m : MSeq) : State := { State.reset with oscReq := true, mseq := m }

/-- The same state with this turn next. -/
def next (t : Turn) (s : State) : State := { s with turns := [t] }

/-- The same state with MAINLINE next, this word on its port and every sample 1. -/
def present (cw : Nat) (s : State) : State := { s with port := some cw, turns := [.mainline none readyPins] }

/-- Configuration B of spec/95_test_vectors.md. -/
def configB : Config := ⟨32, 100, 32768⟩

/-- Levels at which every poll waits. -/
def notReady : Pins := ⟨false, false, false, 0⟩

/-- What a field holds after a micro-step, if there is a next state. -/
def got {α : Type} (f : State → α) (r : Result) : Option α :=
  match r with
  | .next t => some (f t)
  | .fault _ => none
  | .refused _ => none

/-- The new events of a micro-step from a state with an empty history. -/
def events (r : Result) : Option (List Event) := got State.history r

/-- The answer is a next state. -/
def goesOn (r : Result) : Bool :=
  match r with
  | .next _ => true
  | .fault _ => false
  | .refused _ => false

/-- The refusal, if the answer is one. -/
def refusal (r : Result) : Option Refusal :=
  match r with
  | .next _ => none
  | .fault _ => none
  | .refused q => some q

/-! ## Well-formedness (R72, R78) and configurations (R4, R5, R7) -/

theorem test_operand_of_17_bits_is_ill_formed : (Instr.clockDelay 65536).wellFormed Config.standard = false := by decide
theorem test_largest_operand_is_well_formed : (Instr.clockDelay 65535).wellFormed Config.standard = true := by decide
theorem test_configurations_a_and_b_are_legal : Config.standard.Legal ∧ configB.Legal := by decide
theorem test_width_of_one_bit_is_refused : ¬Config.Legal ⟨1, 1, 32⟩ := by decide
theorem test_zero_ticks_per_second_is_refused : ¬Config.Legal ⟨16, 0, 4096⟩ := by decide
theorem test_1001_ticks_per_second_is_refused : ¬Config.Legal ⟨16, 1001, 4096⟩ := by decide
theorem test_ticks_per_second_wider_than_a_tick_is_refused : ¬Config.Legal ⟨4, 16, 4096⟩ := by decide
theorem test_interval_zero_is_refused : ¬Config.Legal ⟨16, 128, 127⟩ := by decide
theorem test_interval_of_25_bits_is_refused : ¬Config.Legal ⟨16, 1, 16777216⟩ := by decide
theorem test_largest_interval_is_legal : Config.Legal ⟨16, 1, 16777215⟩ := by decide

theorem test_illegal_configuration_has_no_step :
    refusal (step { State.reset with config := ⟨16, 0, 4096⟩ }) = some .illegalConfiguration := by decide

/-- 00_scope.md R8, 95_test_vectors.md "Configurations used". -/
theorem test_derived_constants :
    Config.standard.jiffy = 7 ∧ Config.standard.tickInterval = 32 ∧ configB.jiffy = 10 ∧
      configB.tickInterval = 327 := by decide

/-! ## Decoding (R70, R71, R74, R81): CMD_OP, then the 16 bits of CMD_ARG, written out -/

theorem test_decode_clock_init :
    decodeCommand Config.standard 0b0000_0000000000000000 = .ok .clockInit := by decide
theorem test_decode_clock_time :
    decodeCommand Config.standard 0b0001_0000000000000000 = .ok .clockTime := by decide
theorem test_decode_clock_seconds :
    decodeCommand Config.standard 0b0010_0000000000000000 = .ok .clockSeconds := by decide
theorem test_decode_clock_delay_1000 :
    decodeCommand Config.standard 0b0011_0000001111101000 = .ok (.clockDelay 1000) := by decide
theorem test_decode_clock_delay_65535 : decodeCommand Config.standard 0x3FFFF = .ok (.clockDelay 65535) := by decide
theorem test_decode_ignores_the_operand : decodeCommand Config.standard 0x2BEEF = .ok .clockSeconds := by decide
theorem test_decode_of_36_bits : decodeCommand configB 0x3000003E8 = .ok (.clockDelay 1000) := by decide
theorem test_decode_init_clock_source : decodeOperation 0b0100 0 = .ok .initClockSource := by decide
theorem test_decode_read_raw_counter : decodeOperation 0b0101 0 = .ok .readRawCounter := by decide
theorem test_decode_arm_next_compare : decodeOperation 0b0110 0 = .ok .armNextCompare := by decide
theorem test_decode_tick_isr : decodeOperation 0b0111 0 = .ok .tickIsr := by decide

theorem test_internal_codes_are_rejected :
    [0x40000, 0x50000, 0x60020, 0x70000].map (decodeCommand Config.standard) =
      [.error (.internalCode 4), .error (.internalCode 5), .error (.internalCode 6), .error (.internalCode 7)] := by
  decide

theorem test_reserved_codes_are_rejected :
    [0x80000, 0xBEEF0, 0xF0000, 0xFFFFF].map (decodeCommand Config.standard) =
      [.error (.reservedCode 8), .error (.reservedCode 11), .error (.reservedCode 15), .error (.reservedCode 15)] := by
  decide

theorem test_words_of_21_bits_are_rejected :
    decodeCommand Config.standard 0x100000 = .error .notACommandWord := by decide

/-- R81, 30_encoding.md. -/
theorem test_encode_canonical_words :
    [Instr.clockInit, .clockTime, .clockSeconds, .clockDelay 1000].map (encode Config.standard) =
      [0x00000, 0x10000, 0x20000, 0x303E8] := by decide

/-- R78: the call forms, a decimal and a hexadecimal operand, an operand of 17 bits, and lines that are no call. -/
theorem test_call_syntax :
    ["clock_init()", "clock_time()", "clock_seconds()", "clock_delay(1000)", "clock_delay(0x3E8)", "clock_delay(65536)",
        "clock_delay()", "clock_delay(0x)", "clock_delay(1F)", "tick_isr()"].map
        (fun line => commandOfText Config.standard line.toList) =
      [some .clockInit, some .clockTime, some .clockSeconds, some (.clockDelay 1000), some (.clockDelay 1000), none, none,
        none, none, none] := by decide

/-- R78: the line of a command is read back. -/
theorem test_call_syntax_is_read_back :
    [Instr.clockInit, .clockTime, .clockSeconds, .clockDelay 0, .clockDelay 65535].map
        (fun i => (textOfCommand i).bind (commandOfText Config.standard)) =
      [some .clockInit, some .clockTime, some .clockSeconds, some (.clockDelay 0), some (.clockDelay 65535)] := by decide

/-- The table's words, whose bits 3 to 0 are CMD_OP. -/
theorem test_table_words :
    [0, 1, 2, 3, 4, 5, 6, 7].map (decodeTableWord 8) =
      [some .clockInit, some .clockTime, some .clockSeconds, some (.clockDelay 0), some .initClockSource,
        some .readRawCounter, some .armNextCompare, some .tickIsr] := by decide

theorem test_table_word_with_an_operand :
    decodeTableWord 20 0x3E83 = some (.clockDelay 1000) ∧ decodeTableWord 8 0x08 = none := by decide

theorem test_table_words_run_after_reset :
    [0, 1, 2, 3, 4, 5, 6, 7].map (fun w => goesOn (step (State.reset.withFetchWord 8 w))) = List.replicate 8 true := by
  decide

/-! ## One micro-step of each operation -/

/-- V8, second row: CMD_ARG is ignored. R111, line 1 of P1. -/
theorem test_clock_init_is_accepted :
    got (fun t => (t.oscReq, t.mseq, t.phase, t.history)) (step (present 0x01234 State.reset)) =
      some (true, .osc, .uninitialized, [.cmd 0 0x1234]) := by decide

/-- P1, line 16. -/
theorem test_clock_init_enables :
    got (fun t => (t.irqEnable, t.phase, t.mseq, t.history)) (exec .clockInit (starting .en)) =
      some (true, .running, .idle, [.rsp 0 none]) := by decide

/-- P2, line 10. -/
theorem test_clock_time :
    events (step (present 0x10000 (running .idle .idle 642))) = some [.cmd 1 0, .rsp 1 (some 0x0282)] := by decide

/-- V8: not accepted while BUSY, and not accepted while IN_ISR. -/
theorem test_clock_time_stays_presented :
    got (fun t => (t.port, t.history)) (step (present 0x10000 { running .poll .idle 5 with dlyTicks := 9 })) =
        some (some 0x10000, []) ∧
      got (fun t => (t.port, t.history)) (step (present 0x10000 (running .idle .inc 5))) =
        some (some 0x10000, []) := by decide

/-- V4. -/
theorem test_clock_seconds :
    [127, 128, 500, 642, 65535].map (fun n => events (exec .clockSeconds (running .idle .idle n))) =
      [some [.rsp 2 (some 0)], some [.rsp 2 (some 1)], some [.rsp 2 (some 3)], some [.rsp 2 (some 5)],
        some [.rsp 2 (some 511)]] := by decide

/-- V4, the row of 0x2BEEF and the last row of configuration B. -/
theorem test_clock_seconds_ignores_its_operand :
    events (step (present 0x2BEEF (running .idle .idle 500))) = some [.cmd 2 0xBEEF, .rsp 2 (some 3)] ∧
      events (exec .clockSeconds { running .idle .idle 0xFFFFFFFF with config := configB }) =
        some [.rsp 2 (some 0x028F5C28)] := by decide

/-- V5, and line 1 of P2. -/
theorem test_clock_delay_converts :
    [0, 6, 7, 13, 14, 1000, 65535].map (delayTicksOf Config.standard) = [0, 0, 1, 1, 2, 142, 9362] ∧
      [(600, 1000), (1, 999), (3, 1000), (7, 1000), (500, 1000)].map (fun p => delayTicksOf ⟨16, p.1, 4096⟩ p.2) =
        [1000, 0, 3, 7, 500] ∧
      got (fun t => (t.dlyStart, t.dlyTicks, t.mseq, t.history)) (step (present 0x303E8 (running .idle .idle 500))) =
        some (500, 142, .poll, [.cmd 3 1000]) := by decide

/-- V6, third row, across the wrap of TickCounter. -/
theorem test_clock_delay_polls_across_the_wrap :
    [0xFFF0, 0xFFFF, 0x0000, 0x007D, 0x007E].map
        (fun now => got State.mseq
          (exec (.clockDelay 0) { running .poll .idle now with dlyStart := 0xFFF0, dlyTicks := 142 })) =
      [some .poll, some .poll, some .poll, some .poll, some .idle] := by decide

/-- V9, first row. -/
theorem test_init_clock_source_polls :
    got State.mseq (step (next (.mainline none notReady) (starting .osc))) = some .osc ∧
      got State.mseq (step (next (.mainline none readyPins) (starting .osc))) = some (.arm .a0) := by decide

theorem test_init_clock_source_is_not_for_a_pass :
    refusal (exec .initClockSource (running .idle .inc 0)) = some (.notInProgress 4) := by decide

/-- V2, first row: the read of CNT0. -/
theorem test_read_raw_counter_latches :
    got (fun t => (t.snap, t.cntLatch, t.iseq))
        (exec .readRawCounter { running .idle (.arm .a0) 0 with rawCounter := 0xABCDEF }) =
      some (0x0000EF, 0xABCD, .arm .a1) := by decide

/-- V2, second row: the counter has moved on to 0x130000, and CNT1 and CNT2 come from the latch. -/
theorem test_read_raw_counter_is_not_torn :
    got State.snap (exec .readRawCounter
        { starting (.arm .a1) with rawCounter := 0x130000, cntLatch := 0x12FF, snap := 0x0000FF }) =
        some 0x00FFFF ∧
      got State.snap (exec .readRawCounter
        { starting (.arm .a2) with rawCounter := 0x130000, cntLatch := 0x12FF, snap := 0x00FFFF }) =
        some 0x12FFFF := by decide

/-- V1 at step A3, under the configuration of each row. -/
theorem test_reload_arithmetic :
    [0xFFFFF0, 0x000000, 0xFFFFFF, 0xFFFFE0, 0xFFFFDF, 0x12FFF0].map
        (fun v => got State.newcmp (exec .armNextCompare { starting (.arm .a3) with snap := v })) =
      [some 0x000010, some 0x000020, some 0x00001F, some 0x000000, some 0xFFFFFF, some 0x130010] ∧
    got State.newcmp (exec .armNextCompare { starting (.arm .a3) with snap := 0x00FF00, config := configB }) =
      some 0x010047 ∧
    got State.newcmp (exec .armNextCompare { starting (.arm .a3) with snap := 0xFFFFFF, config := ⟨16, 1, 0xFFFFFF⟩ }) =
      some 0xFFFFFE := by decide

/-- V1, sixth row, bytes 13, 00, 10: the writes at A5, A6 and A7. -/
theorem test_compare_bytes_are_written_high_to_low :
    got State.cmpHold (exec .armNextCompare { starting (.arm .a5) with newcmp := 0x130010, cmpHold := 0xAAAA }) =
      some 0x13AA ∧
    got State.cmpHold (exec .armNextCompare { starting (.arm .a6) with newcmp := 0x130010, cmpHold := 0x13AA }) =
      some 0x1300 ∧
    got (fun t => (t.cmp, t.armed, t.mseq, t.history))
        (exec .armNextCompare { starting (.arm .a7) with newcmp := 0x130010, cmpHold := 0x1300 }) =
      some (0x130010, true, .en, [.adopt 0x130010]) := by decide

/-- V7: ET_NEXT, TickCounter after I_INC, whether POLL_REQ follows. -/
theorem test_tick_isr_expiry :
    [(500, 500), (499, 500), (501, 500), (0xFFFE, 0x0005), (0x0005, 0xFFFE), (0x0000, 0x8000), (0x0000, 0x7FFF),
        (0x8001, 0x0000)].map
        (fun p => events (step (next (.isr ⟨true, true, true, p.1⟩) (running .idle .chk p.2)))) =
      [some [.pollReq], some [.pollReq], some [], some [.pollReq], some [], some [], some [.pollReq],
        some [.pollReq]] ∧
    events (step (next (.isr ⟨true, true, false, 500⟩) (running .idle .chk 500))) = some [] := by decide

/-- P3, pass 2: the wrap at I_INC. P4, line 15: I_CLR. -/
theorem test_tick_isr_increment_and_clear :
    got (fun t => (t.tickCounter, t.iseq)) (exec .tickIsr (running .idle .inc 0xFFFF)) = some (0, .chk) ∧
      got (fun t => (t.irqPending, t.iseq)) (exec .tickIsr { running .idle .clr 11 with irqPending := true }) =
        some (false, .ret) := by decide

/-! ## The timer and reset -/

/-- P1, line 17: the match on arrival. V3: a comparator at the counter's own value does not match. -/
theorem test_counter_matches_on_arrival :
    got (fun t => (t.rawCounter, t.irqPending, t.armed, t.history))
        (step (next .counter { running .idle .idle 0 with rawCounter := 0x00000F, cmp := 0x000010, armed := true })) =
      some (0x000010, true, false, [.matched]) ∧
    got (fun t => (t.rawCounter, t.irqPending, t.armed, t.history))
        (step (next .counter { running .idle .idle 0 with rawCounter := 0xFFFFFF, cmp := 0xFFFFFF, armed := true })) =
      some (0x000000, false, true, []) := by decide

/-- V3. -/
theorem test_distance_to_the_next_match :
    [(0x000010, 0xFFFFF2), (0x000120, 0x000100), (0x000101, 0x000100), (0x000100, 0x000100),
        (0x0000FF, 0x000100)].map (fun p => distanceToMatch p.1 p.2) = [30, 32, 1, 16777216, 16777215] := by decide

/-- V8: the four refusals by PHASE. -/
theorem test_refusals_by_phase :
    refusal (step (present 0x00000 (running .idle .idle 0))) = some .secondClockInit ∧
      refusal (step (present 0x10000 State.reset)) = some (.beforeClockInit 1) ∧
      refusal (step (present 0x20000 State.reset)) = some (.beforeClockInit 2) ∧
      refusal (step (present 0x303E8 State.reset)) = some (.beforeClockInit 3) := by decide

/-- V8: internal and reserved codes. -/
theorem test_refusals_by_code :
    refusal (step (present 0x60020 (running .idle .idle 0))) = some (.internalCodeOnPort 6) ∧
      refusal (step (present 0xF0000 State.reset)) = some (.reservedCode 15) := by decide

/-- V10. -/
theorem test_reset_event :
    let r := step (next (.reset ⟨1, 2, 3, 4, 5, 6, 7⟩)
      { running .poll .chk 0x1234 with irqPending := true, armed := true, rawCounter := 0x00ABCD })
    got (fun t => (t.phase, t.tickCounter, t.mseq, t.iseq, t.rawCounter)) r =
        some (.uninitialized, 0, .idle, .idle, 0x00ABCD) ∧
      got (fun t => [t.irqEnable, t.irqPending, t.armed, t.oscReq]) r = some [false, false, false, false] ∧
      events r = some [.reset] := by decide

/-! ## Witnesses: states and operands that meet the hypotheses of the statements -/

/-- MAINLINE's turn with nothing offered. -/
def mainTurn : Turn := .mainline none readyPins

/-- ISR's turn. -/
def isrTurn : Turn := .isr readyPins

theorem test_witness_DecodeInvertsEncode :
    (Instr.clockDelay 65535).wellFormed Config.standard = true ∧ Instr.tickIsr.wellFormed configB = true := by decide

theorem test_witness_PortDecodesEveryWord :
    ([0, 1, 2, 3, 4, 7, 8, 15].all (fun op => decide (op < 16))) = true ∧ 65535 < 2 ^ Config.standard.tickW := by decide

theorem test_witness_StepRunsTheAcceptedCommand :
    let s := present 0x303E8 (running .idle .idle 500)
    s.config.Legal ∧ s.nextTurn = mainTurn ∧ s.CanAccept ∧ s.offered none = some 0x303E8 ∧
      decodeCommand s.config 0x303E8 = .ok (.clockDelay 1000) := by decide

theorem test_witness_StepRunsTheMainlineOperation :
    ([starting .osc, starting (.arm .a0), starting (.arm .a1), starting (.arm .a2), starting (.arm .a3),
        starting (.arm .a4), starting (.arm .a5), starting (.arm .a6), starting (.arm .a7), starting .en,
        running .poll .idle 7].map (next mainTurn)).all
      (fun s => decide (s.config.Legal ∧ s.nextTurn = mainTurn ∧ s.iseq = .idle)) = true := by decide

/-- The clauses about the port: M_IDLE with nothing presented, and while BUSY a held word and an offer to an empty port. -/
theorem test_witness_StepRunsTheMainlineOperation_port :
    (let s := next mainTurn (running .idle .idle 7)
     s.config.Legal ∧ s.nextTurn = mainTurn ∧ s.iseq = .idle ∧ s.mseq = .idle ∧ s.offered none = none) ∧
    (let t := Turn.mainline (some 0x20000) readyPins
     let s := next t { running .poll .idle 7 with port := some 0x10000 }
     s.config.Legal ∧ s.nextTurn = t ∧ s.iseq = .idle ∧ s.mseq ≠ .idle ∧ s.port = some 0x10000) ∧
    (let t := Turn.mainline (some 0x20000) readyPins
     let s := next t (starting .osc)
     s.config.Legal ∧ s.nextTurn = t ∧ s.iseq = .idle ∧ s.mseq ≠ .idle ∧ s.port = none) := by decide

theorem test_witness_StepRunsTheInterruptOperation :
    ([.arm .a0, .arm .a1, .arm .a2, .arm .a3, .arm .a4, .arm .a5, .arm .a6, .arm .a7, .inc, .chk, .clr, .ret,
        .idle].map (fun i => next isrTurn (running .idle i 7))).all
      (fun s => decide (s.config.Legal ∧ s.nextTurn = isrTurn)) = true := by decide

/-- A command that is accepted, and a word without a meaning that is not accepted now. -/
theorem test_witness_OnlyMeaninglessRequestsStop :
    (present 0x10000 (running .idle .idle 5)).config.Legal ∧
      (present 0x10000 (running .idle .idle 5)).RequestHonoured mainTurn ∧
      (present 0xF0000 (running .poll .idle 5)).RequestHonoured mainTurn := by
  refine ⟨by decide, fun _ cw h => ?_, fun h => absurd h (by decide)⟩
  obtain rfl : 0x10000 = cw := Option.some.inj h
  exact (rfl : (running .idle .idle 5).phase = .running)

theorem test_witness_PortRefusesOtherCodes :
    ([0x40000, 0x7FFFF, 0x80000, 0xFFFFF].all fun cw =>
      let s := present cw State.reset
      decide (s.config.Legal ∧ s.nextTurn = mainTurn ∧ s.CanAccept ∧ s.offered none = some cw ∧
        cw < 2 ^ (s.config.tickW + 4) ∧ 4 ≤ cw / 2 ^ s.config.tickW)) = true := by decide

theorem test_witness_RefusedBeforeClockInit :
    ([0x10000, 0x20000, 0x3FFFF].all fun cw =>
      let s := present cw State.reset
      decide (s.config.Legal ∧ s.nextTurn = mainTurn ∧ s.CanAccept ∧ s.offered none = some cw ∧
        s.phase = .uninitialized ∧ cw < 2 ^ (s.config.tickW + 4) ∧ 1 ≤ cw / 2 ^ s.config.tickW ∧
        cw / 2 ^ s.config.tickW ≤ 3)) = true := by decide

theorem test_witness_SecondClockInitRefused :
    ([0x00000, 0x0FFFF].all fun cw =>
      let s := present cw (running .idle .idle 5)
      decide (s.config.Legal ∧ s.nextTurn = mainTurn ∧ s.CanAccept ∧ s.offered none = some cw ∧
        s.phase = .running ∧ cw < 2 ^ s.config.tickW)) = true := by decide

theorem test_witness_CommandsWaitForTheirTurn :
    ¬(running .poll .idle 5).CanAccept ∧ ¬(running .idle .inc 5).CanAccept ∧ (running .idle .inc 5).InIsr ∧
      (running .poll .idle 5).iseq = .idle ∧ (running .poll .idle 5).mseq = .poll ∧ (starting .osc).mseq = .osc ∧
      (starting (.arm .a7)).mseq = .arm .a7 ∧ (starting .en).mseq = .en := by decide

theorem test_witness_MeaningsStopByName :
    State.reset.CanAccept ∧ State.reset.phase = .uninitialized ∧ (running .idle .idle 5).CanAccept ∧
      (running .idle .idle 5).phase = .running ∧ (running .idle .inc 5).iseq ≠ .idle ∧
      (starting (.arm .a3)).mseq ≠ .osc ∧ (starting (.arm .a3)).armPos = some .a3 ∧
      State.reset.armPos = none := by decide

theorem test_witness_InitClockSourceSteps :
    State.reset.iseq = .idle ∧ State.reset.mseq = .idle ∧ State.reset.phase = .uninitialized ∧
      (starting .osc).mseq = .osc ∧ (starting .osc).pins.oscOk = false ∧
      ({ starting .osc with pins := readyPins } : State).pins.oscOk = true := by decide

/-- For the statements about `READ_RAW_COUNTER` and `ARM_NEXT_COMPARE` on the mainline and on the interrupt sequencer. -/
theorem test_witness_ReadRawCounterSteps :
    ([ArmPos.a0, .a1, .a2].all fun a =>
      decide ((starting (.arm a)).iseq = .idle ∧ (starting (.arm a)).mseq = .arm a ∧
        (running .idle (.arm a) 5).iseq = .arm a)) = true := by decide

theorem test_witness_SnapshotIsTheCounterAtTheFirstRead :
    (starting (.arm .a0)).armPos = some .a0 ∧ (running .poll (.arm .a0) 5).armPos = some .a0 := by decide

theorem test_witness_ArmNextCompareStepsInClockInit :
    ([ArmPos.a3, .a4, .a5, .a6, .a7].all fun a =>
      decide ((starting (.arm a)).iseq = .idle ∧ (starting (.arm a)).mseq = .arm a)) = true ∧
    (starting (.arm .a4)).pins.loadReady = false ∧
    ({ starting (.arm .a4) with pins := readyPins } : State).pins.loadReady = true := by decide

theorem test_witness_ArmNextCompareStepsInTickIsr :
    ([ArmPos.a3, .a4, .a5, .a6, .a7].all fun a => decide ((running .poll (.arm a) 5).iseq = .arm a)) = true ∧
    (running .poll (.arm .a4) 5).pins.loadReady = false ∧
    ({ running .poll (.arm .a4) 5 with pins := readyPins } : State).pins.loadReady = true := by decide

/-- The largest snapshot with the largest legal interval. -/
theorem test_witness_ReloadArithmeticIsModular :
    let s : State := { starting (.arm .a3) with snap := 0xFFFFFF, config := ⟨16, 1, 0xFFFFFF⟩ }
    s.armPos = some .a3 ∧ s.config.Legal := by decide

theorem test_witness_InterleavedReloadAdoptsTheSnapshotPlusInterval :
    ([{ starting (.arm .a0) with pins := readyPins }, { running .poll (.arm .a0) 5 with pins := readyPins }].all
      fun s : State => decide (s.config.Legal ∧ s.armPos = some .a0 ∧ s.pins.loadReady = true)) = true ∧
    [1, 0, 0, 0, 30, 0, 0].length = 7 ∧ [0, 0, 0, 40, 0, 0, 0].length = 7 := by decide

theorem test_witness_ClockInitSteps :
    State.reset.iseq = .idle ∧ State.reset.mseq = .idle ∧ State.reset.phase = .uninitialized ∧
      (starting .en).iseq = .idle ∧ (starting .en).mseq = .en := by decide

theorem test_witness_ClockInitRunsToItsResponse :
    let s : State := { State.reset with port := some 0x01234, turns := List.replicate 11 mainTurn ++ [.counter] }
    s.config.Legal ∧ s.CanAccept ∧ s.phase = .uninitialized ∧ s.port = some 0x01234 ∧ 0x01234 < 2 ^ s.config.tickW ∧
      readyPins.oscOk = true ∧ readyPins.loadReady = true ∧
      s.turns = List.replicate 11 (.mainline none readyPins) ++ [.counter] := by decide

theorem test_witness_InterruptEntryChangesOnlyIseq :
    (running .poll .idle 5).iseq = .idle ∧ { running .poll .idle 5 with irqPending := true }.EntryEnabled := by decide

theorem test_witness_TickIsrSteps :
    (running .idle .inc 5).iseq = .inc ∧ (running .idle .chk 5).iseq = .chk ∧ (running .idle .clr 5).iseq = .clr := by
  decide

/-- A return with a match pending and a delay in progress. -/
theorem test_witness_InterruptReturnChangesOnlyIseq :
    let s : State := { running .poll .ret 5 with irqPending := true }
    s.iseq = .ret ∧ s.irqPending = true ∧ s.irqEnable = true ∧ s.mseq.operation = some (.clockDelay 0) := by decide

theorem test_witness_PassRunsToItsReturn :
    let s : State := { running .poll .idle 0xFFFF with irqPending := true, turns := List.replicate 13 isrTurn ++ [] }
    s.config.Legal ∧ s.EntryEnabled ∧ readyPins.loadReady = true ∧
      s.turns = List.replicate 13 (.isr readyPins) ++ [] := by decide

/-- Both clauses at their boundary under `TICK_W = 16`: 0x7FFF ticks overdue, 0x8000 ticks ahead. -/
theorem test_witness_ExpiryAgreesWithPlainComparison :
    1 ≤ Config.standard.tickW ∧ (0 ≤ 0x7FFF ∧ 0x7FFF - 0 < 2 ^ (Config.standard.tickW - 1)) ∧
      (0 < 0x8000 ∧ 0x8000 - 0 ≤ 2 ^ (Config.standard.tickW - 1)) := by decide

/-- For ClockTimeResponds, ClockSecondsResponds and ClockDelayStarts. -/
theorem test_witness_CommandsRespondWhenRunning :
    (running .idle .idle 0xFFFF).CanAccept ∧ (running .idle .idle 0xFFFF).phase = .running ∧
      (running .idle .idle 0xFFFF).tickCounter < 2 ^ (running .idle .idle 0xFFFF).config.tickW := by decide

theorem test_witness_ClockDelayPolls :
    (running .poll .idle 0x007E).iseq = .idle ∧ (running .poll .idle 0x007E).mseq = .poll := by decide

/-- The third row of V6: 142 increments across the wrap. -/
theorem test_witness_DelayTestCountsElapsedTicks :
    let s : State := { running .poll .idle 0x007E with dlyStart := 0xFFF0, dlyTicks := 142 }
    s.dlyStart < 2 ^ s.config.tickW ∧ 142 < 2 ^ s.config.tickW ∧
      s.tickCounter = (s.dlyStart + 142) % 2 ^ s.config.tickW := by decide

theorem test_witness_DelayErrsLong : Config.Legal ⟨16, 600, 4096⟩ ∧ Config.Legal ⟨16, 1, 4096⟩ := by decide

theorem test_witness_TimerSideAccesses :
    ([3, 4, 5, 7].all fun a : BitVec 3 => decide (a = 3 ∨ a = 4 ∨ a = 5 ∨ a = 7)) = true ∧
      ([0, 1, 2, 6, 7].all fun a : BitVec 3 => decide (a = 0 ∨ a = 1 ∨ a = 2 ∨ a = 6 ∨ a = 7)) = true := by decide

theorem test_witness_CounterStepMatchesOnArrival :
    (next .counter (running .idle .idle 5)).config.Legal ∧
      (next .counter (running .idle .idle 5)).nextTurn = .counter := by decide

theorem test_witness_NextMatchDistance : { running .idle .idle 5 with armed := true }.armed = true := by decide

theorem test_witness_DisarmedNeverFires : (running .idle .idle 5).armed = false := by decide

/-- P4: the counter stands one before the compare value at I_CLR. -/
theorem test_witness_MatchAgainstClear :
    let s : State :=
      { running .idle .clr 11 with armed := true, irqPending := true, rawCounter := 0x000121, cmp := 0x000122 }
    s.iseq = .clr ∧ s.phase = .running ∧ (s.mseq = .idle ∨ s.mseq = .poll) ∧ s.armed = true ∧
      s.rawCounter + 1 = s.cmp := by decide

/-- P4: the end state, at a COUNTER step on which the counter arrives at the compare value, at a poll, at a turn of ISR,
and at the RESET that leaves it. -/
theorem test_witness_DeadTimerStaysDead :
    ([.counter, mainTurn, isrTurn, .reset ⟨0, 0, 0, 0, 0, 0, 0⟩].map fun t =>
      next t { running .poll .idle 11 with
        dlyStart := 11, dlyTicks := 1, rawCounter := 0x000121, cmp := 0x000122 }).all
      (fun s => decide (s.TimerDead) && goesOn (step s)) = true := by decide

theorem test_witness_ResetEventTakesEveryElement :
    (next (.reset ⟨1, 2, 3, 4, 5, 6, 7⟩) (running .poll .chk 5)).config.Legal ∧
      (next (.reset ⟨1, 2, 3, 4, 5, 6, 7⟩) (running .poll .chk 5)).nextTurn = .reset ⟨1, 2, 3, 4, 5, 6, 7⟩ := by decide

/-- A step that writes TickCounter, and one that does not. -/
theorem test_witness_OnlyIncrementWritesTickCounter :
    (∃ t, step (next isrTurn (running .idle .inc 5)) = .next t) ∧
      ∃ t, step (next .counter (running .idle .inc 5)) = .next t :=
  ⟨⟨_, rfl⟩, _, rfl⟩

/-- M_EN, the acceptance of CLOCK_INIT, and a reset. -/
theorem test_witness_OnlyClockInitEnables :
    (∃ t, step (next mainTurn (starting .en)) = .next t) ∧ (∃ t, step (present 0x01234 State.reset) = .next t) ∧
      ∃ t, step (next (.reset ⟨0, 0, 0, 0, 0, 0, 0⟩) (running .idle .idle 5)) = .next t :=
  ⟨⟨_, rfl⟩, ⟨_, rfl⟩, _, rfl⟩

theorem test_witness_OnlyCounterWritesRawCounter :
    (∃ t, step (next .counter (running .idle .idle 5)) = .next t) ∧
      ∃ t, step (next mainTurn (running .idle .idle 5)) = .next t :=
  ⟨⟨_, rfl⟩, _, rfl⟩

/-- A7 on each sequencer. -/
theorem test_witness_OnlyAdoptionWritesCmp :
    (∃ t, step (next mainTurn (starting (.arm .a7))) = .next t) ∧
      (∃ t, step (next isrTurn (running .idle (.arm .a7) 5)) = .next t) ∧
      (∀ f, (next mainTurn (starting (.arm .a7))).nextTurn ≠ .reset f) ∧
      ∀ f, (next isrTurn (running .idle (.arm .a7) 5)).nextTurn ≠ .reset f :=
  ⟨⟨_, rfl⟩, ⟨_, rfl⟩, fun _ => nofun, fun _ => nofun⟩

/-- The four clauses: a match (which sets one bit and clears the other), I_CLR, A7. -/
theorem test_witness_WhatSetsAndClearsTheInterruptBits :
    (let s := next .counter { running .idle .idle 5 with armed := true, rawCounter := 0x121, cmp := 0x122 }
     s.irqPending = false ∧ s.armed = true ∧ (∀ f, s.nextTurn ≠ .reset f) ∧
       got (fun t => (t.irqPending, t.armed)) (step s) = some (true, false)) ∧
    (let s := next isrTurn { running .idle .clr 5 with irqPending := true }
     s.irqPending = true ∧ (∀ f, s.nextTurn ≠ .reset f) ∧ got State.irqPending (step s) = some false) ∧
    (let s := next isrTurn (running .idle (.arm .a7) 5)
     s.armed = false ∧ (∀ f, s.nextTurn ≠ .reset f) ∧ got State.armed (step s) = some true) :=
  ⟨⟨rfl, rfl, fun _ => nofun, rfl⟩, ⟨rfl, fun _ => nofun, rfl⟩, rfl, fun _ => nofun, rfl⟩

/-- During a pass: a MAINLINE turn that offers a word to a port that holds one and to an empty port, and turns of the
others. -/
theorem test_witness_MainlineFrozenInInterruptContext :
    (let s := next (.mainline (some 0x20000) readyPins) { running .poll (.arm .a4) 5 with port := some 0x10000 }
     s.InIsr ∧ (∀ f, s.nextTurn ≠ .reset f) ∧ s.port = some 0x10000 ∧
       got State.port (step s) = some (some 0x10000)) ∧
    (let s := next (.mainline (some 0x20000) readyPins) (running .poll (.arm .a4) 5)
     s.InIsr ∧ (∀ f, s.nextTurn ≠ .reset f) ∧ s.port = none ∧ got State.port (step s) = some (some 0x20000)) ∧
    (let s := next isrTurn { running .poll .clr 5 with port := some 0x10000 }
     s.InIsr ∧ (∀ f, s.nextTurn ≠ .reset f) ∧ s.port = some 0x10000 ∧ goesOn (step s) = true) ∧
    (let s := next .counter (running .poll .inc 5)
     s.InIsr ∧ (∀ f, s.nextTurn ≠ .reset f) ∧ (∀ o p, s.nextTurn ≠ .mainline o p) ∧ s.port = none ∧
       goesOn (step s) = true) :=
  ⟨⟨by decide, fun _ => nofun, rfl, by decide⟩, ⟨by decide, fun _ => nofun, rfl, by decide⟩,
    ⟨by decide, fun _ => nofun, rfl, by decide⟩, by decide, fun _ => nofun, fun _ _ => nofun, rfl, by decide⟩

/-- Entry, return, and a reset during a pass. -/
theorem test_witness_InterruptContextOnlyByEntryAndReturn :
    got State.iseq (step (next isrTurn { running .idle .idle 5 with irqPending := true })) = some (.arm .a0) ∧
      got State.iseq (step (next isrTurn (running .idle .ret 5))) = some .idle ∧
      got State.iseq (step (next (.reset ⟨0, 0, 0, 0, 0, 0, 0⟩) (running .idle .chk 5))) = some .idle := by decide

/-- A poll that ends and a poll that waits. -/
theorem test_witness_DelayEndsOnlyByItsTest :
    (let s := next mainTurn { running .poll .idle 642 with dlyStart := 500, dlyTicks := 142 }
     s.mseq = .poll ∧ got State.mseq (step s) = some .idle ∧ ∀ f, s.nextTurn ≠ .reset f) ∧
    (let s := next mainTurn { running .poll .idle 641 with dlyStart := 500, dlyTicks := 142 }
     s.mseq = .poll ∧ got State.mseq (step s) = some .poll ∧ ∀ f, s.nextTurn ≠ .reset f) :=
  ⟨⟨rfl, rfl, fun _ => nofun⟩, rfl, rfl, fun _ => nofun⟩

/-- The waits of V9 on MAINLINE's turn (M_OSC and, third row, M_ARM(A4)) and on ISR's, and a poll of V6 one tick early. -/
theorem test_witness_HangsPersistWhileTheSampleIsZero :
    (([starting .osc, { starting (.arm .a4) with newcmp := 0x000120 }].map (next (.mainline none notReady))).all fun s =>
      decide (s.Coherent ∧ s.iseq = .idle ∧ s.nextTurn = .mainline none notReady) && goesOn (step s)) = true ∧
    (let s := next (.isr notReady) { running .poll (.arm .a4) 5 with irqPending := true }
     s.Coherent ∧ s.iseq = .arm .a4 ∧ s.irqPending = true ∧ goesOn (step s) = true ∧
       s.nextTurn = .isr notReady) ∧
    (let s := next mainTurn { running .poll .idle 0x007D with dlyStart := 0xFFF0, dlyTicks := 142 }
     s.Coherent ∧ s.mseq = .poll ∧ subMod s.config.tickW s.tickCounter s.dlyStart < s.dlyTicks ∧
       goesOn (step s) = true) := by decide

/-- I_INC at the largest value, and a command word offered. -/
theorem test_witness_StepKeepsValuesInRange :
    ([next isrTurn (running .idle .inc 0xFFFF), present 0x3FFFF (running .idle .idle 0xFFFF)].all
      fun s => decide s.InRange && goesOn (step s)) = true := by decide

/-- M_EN, interrupt entry, acceptance of CLOCK_DELAY and of CLOCK_INIT. -/
theorem test_witness_StepKeepsPhasesCoherent :
    ([next mainTurn (starting .en), next isrTurn { running .poll .idle 5 with irqPending := true },
        present 0x303E8 (running .idle .idle 500), present 0 State.reset].all
      fun s => decide s.Coherent && goesOn (step s)) = true := by decide

/-- A match while idle; A7 of a pass. -/
theorem test_witness_StepKeepsTheComparatorOneShot :
    (let s := next .counter { running .idle .idle 5 with armed := true, rawCounter := 0x121, cmp := 0x122 }
     s.Coherent ∧ s.OneShot ∧ goesOn (step s) = true) ∧
    (let s := next isrTurn { running .idle (.arm .a7) 5 with irqPending := true }
     s.Coherent ∧ s.OneShot ∧ goesOn (step s) = true) :=
  ⟨⟨by decide, (nofun : ¬(false = true ∧ true = true)), rfl⟩, by decide, ⟨rfl, rfl⟩, rfl⟩

/-- A7 of CLOCK_INIT, which completes the reload. -/
theorem test_witness_StepKeepsTheReload :
    let s := next mainTurn { starting (.arm .a7) with snap := 0x12FFF0, newcmp := 0x130010, cmpHold := 0x1300 }
    s.Coherent ∧ s.ReloadKept ∧ goesOn (step s) = true :=
  ⟨by decide, ⟨rfl, rfl⟩, rfl⟩

/-- Two passes since the last reset, the second at its I_INC; and the entry of a third. -/
theorem test_witness_StepKeepsTicksExact :
    ([next isrTurn { running .idle .inc 1 with history := [.irqEntry, .reset, .irqEntry, .irqRet, .irqEntry] },
        next isrTurn { running .idle .idle 2 with
          irqPending := true, history := [.reset, .irqEntry, .irqRet, .irqEntry, .irqRet] }].all
      fun s => decide s.TickExact && goesOn (step s)) = true := by decide

/-- A delay accepted at tick 0xFFFF, one pass counted, at a poll that waits, and in the second pass at its I_INC. -/
theorem test_witness_StepKeepsTheDelayExact :
    ([next mainTurn { running .poll .idle 0 with
        dlyStart := 0xFFFF, dlyTicks := 2, history := [.irqEntry, .cmd 3 14, .irqEntry, .irqRet] },
        next isrTurn { running .poll .inc 0 with
          dlyStart := 0xFFFF, dlyTicks := 2, history := [.cmd 3 14, .irqEntry, .irqRet, .irqEntry] }].all
      fun s => decide (s.mseq = .poll) && decide s.DelayExact && goesOn (step s)) = true := by decide

/-- The poll that completes this delay. -/
theorem test_witness_DelayNeverReturnsEarly :
    let s := next mainTurn { running .poll .idle 1 with
      dlyStart := 0xFFFF, dlyTicks := 2, history := [.cmd 3 14, .irqEntry, .irqRet, .irqEntry, .irqRet] }
    s.DelayExact ∧ s.mseq = .poll ∧ got State.history (step s) = some (s.history ++ [.rsp 3 none]) := by decide

end Sys2Proof.Tests
end

section
/-! ## Every step keeps the values of `TICK_W` bits in their width (R9, R21, R33, R70) -/

namespace Sys2Proof

/-- The operation table passes the operand of `CLOCK_DELAY` on as it stands (R72). -/
theorem decodeOperation_clockDelay {code arg ms : Nat} (h : decodeOperation code arg = .ok (.clockDelay ms)) :
    ms = arg := by
  unfold decodeOperation at h
  split at h <;> cases h
  rfl

/-- The operation of a presented word is the table's reading of its two fields (R70, R80). -/
theorem decodeOperation_of_decodeCommand {c : Config} {cw : Nat} {i : Instr} (h : decodeCommand c cw = .ok i) :
    decodeOperation (c.cmdOp cw) (c.cmdArg cw) = .ok i := by
  unfold decodeCommand at h
  split at h
  · split at h
    next j hj =>
      split at h
      · cases h; exact hj
      · cases h
    next => cases h
  · cases h

/-- The operand of an accepted `CLOCK_DELAY` has `TICK_W` bits. -/
theorem clockDelay_operand_lt {c : Config} {cw ms : Nat} (h : decodeCommand c cw = .ok (.clockDelay ms)) :
    ms < 2 ^ c.tickW :=
  calc ms = c.cmdArg cw := decodeOperation_clockDelay (decodeOperation_of_decodeCommand h)
    _ < 2 ^ c.tickW := Nat.mod_lt _ (Nat.two_pow_pos _)

namespace Machine

/-- The division of R118 does not leave the width. -/
theorem delayTicksOf_lt {c : Config} {ms n : Nat} (h : ms < n) : delayTicksOf c ms < n :=
  (Nat.div_le_self ms c.jiffy).trans_lt h

/-- Taking a turn off the list touches no value that has a width. -/
theorem takeTurn_inRange {s : State} (h : s.InRange) : s.takeTurn.2.InRange := by
  rw [takeTurn_eq]; exact h

theorem latchPins_inRange {s : State} (h : s.InRange) (p : Pins) : (s.latchPins p).InRange := by
  obtain ⟨htick, hstart, hticks, -, hport⟩ := h
  exact ⟨htick, hstart, hticks, Nat.mod_lt _ (Nat.two_pow_pos _), hport⟩

/-- A word held by the port was in range before the offer, and an offer that reaches it is as wide as the port. -/
theorem present_inRange {s : State} (h : s.InRange) (o : Option Nat) : (s.present o).InRange := by
  obtain ⟨htick, hstart, hticks, hnext, hport⟩ := h
  rw [present_eq]
  refine ⟨htick, hstart, hticks, hnext, ?_⟩
  show (s.present o).port.all _ = true
  rw [present_port]
  cases hp : s.port with
  | some cw => rw [hp] at hport; exact hport
  | none =>
    cases o with
    | none => rfl
    | some w => exact decide_eq_true (Nat.mod_lt w (Nat.two_pow_pos _))

theorem latchTurn_inRange {s : State} (h : s.InRange) : ∀ t : Turn, (s.latchTurn t).InRange
  | .counter => h
  | .mainline o p => present_inRange (latchPins_inRange h p) o
  | .isr p => latchPins_inRange h p
  | .reset _ => h

/-- The reload writes only the timer's side, its own registers and a sequencer (R92). -/
theorem armMicroStep_inRange {s t : State} {a : ArmPos} (h : s.InRange) (ha : s.armMicroStep a = .next t) :
    t.InRange := by
  cases a <;> simp only [armMicroStep_a0, armMicroStep_a1, armMicroStep_a2, armMicroStep_a3, armMicroStep_a4,
    armMicroStep_a5, armMicroStep_a6, armMicroStep_a7, Host.Outcome.next.injEq] at ha <;> subst ha
  case a4 =>
    split
    · simpa [State.InRange] using h
    · exact h
  all_goals simpa [State.InRange] using h

/-- `TickCounter` is written modulo its width at I_INC, the delay registers at the acceptance of `CLOCK_DELAY` from
values in range, and a RESET reduces what it fills in; the other micro-steps write no value of `TICK_W` bits, and the port
is only emptied. -/
theorem transition_keeps_inRange {turn : Turn} {s t : State} (h : s.InRange) (ht : Transition turn s t) :
    t.InRange := by
  have ⟨htick, hstart, hticks, hnext, hport⟩ := h
  cases ht with
  | counter => simpa [State.InRange] using h
  | reset f => exact ⟨Nat.two_pow_pos _, Nat.mod_lt _ (Nat.two_pow_pos _), Nat.mod_lt _ (Nat.two_pow_pos _), hnext, rfl⟩
  | idle => exact h
  | acceptInit => exact ⟨htick, hstart, hticks, hnext, rfl⟩
  | acceptTime => exact ⟨htick, hstart, hticks, hnext, rfl⟩
  | acceptSeconds => exact ⟨htick, hstart, hticks, hnext, rfl⟩
  | acceptDelay o p _ cw ms hi hm hp hd => exact ⟨htick, htick, delayTicksOf_lt (clockDelay_operand_lt hd), hnext, rfl⟩
  | osc => simpa [State.InRange] using h
  | mainlineArm o p _ _ a hi hm ha => exact armMicroStep_inRange h ha
  | enable => exact h
  | poll => simpa [State.InRange] using h
  | noEntry => exact h
  | entry => exact h
  | isrArm p _ _ a hi ha => exact armMicroStep_inRange h ha
  | inc => exact ⟨addMod_lt _ _ _, hstart, hticks, hnext, hport⟩
  | chk => simpa [State.InRange] using h
  | clr => exact h
  | ret => exact h

/-- Settles O54: the inputs are latched in their width, and every micro-step keeps the widths. -/
theorem stepKeepsValuesInRange : Obligations.StepKeepsValuesInRange := by
  intro s t h hstep
  obtain ⟨-, s₀, rfl, -, htrans⟩ := step_cases hstep
  exact transition_keeps_inRange (latchTurn_inRange (takeTurn_inRange h) _) htrans

end Machine
end Sys2Proof
end

section
/-! ## What a turn latches, and what a step can do: the facts the rules of the whole machine rest on -/

namespace Sys2Proof.Machine

/-! ### The inputs of a turn (R43, R75) -/

/-- The word on the port once the inputs of a turn are latched: a turn of MAINLINE brings the requester's offer. -/
def State.portAt (s : State) : Turn → Option Nat
  | .mainline o _ => s.offered o
  | .counter => s.port
  | .isr _ => s.port
  | .reset _ => s.port

theorem portAt_of_some {s : State} {cw : Nat} (h : s.port = some cw) (t : Turn) : s.portAt t = some cw := by
  cases t with
  | mainline o p => exact (present_port s o).trans (by rw [h]; rfl)
  | counter => exact h
  | isr p => exact h
  | reset f => exact h

theorem portAt_mainline_of_none {s : State} (h : s.port = none) (o : Option Nat) (p : Pins) :
    s.portAt (.mainline o p) = o.map (· % 2 ^ (s.config.tickW + 4)) :=
  (present_port s o).trans (by rw [h]; rfl)

theorem portAt_of_ne_mainline {s : State} {t : Turn} (h : ∀ o p, t ≠ .mainline o p) : s.portAt t = s.port := by
  cases t with
  | mainline o p => exact absurd rfl (h o p)
  | counter => rfl
  | isr p => rfl
  | reset f => rfl

/-- Taking a turn and latching its inputs changes only the model's own fields, and the port as `portAt` says. -/
theorem latchTurn_takeTurn (s : State) (t : Turn) : ∃ pins turns n,
    s.takeTurn.2.latchTurn t = { s with pins := pins, port := s.portAt t, turns := turns, turnNo := n } := by
  rw [takeTurn_eq]
  generalize s.takeTurn.2.turns = ts
  generalize s.takeTurn.2.turnNo = n
  cases t with
  | counter => exact ⟨_, _, _, rfl⟩
  | mainline o p =>
    refine ⟨(s.latchPins p).pins, ts, n, ?_⟩
    rw [State.latchTurn, present_eq, present_port, State.portAt, State.offered, present_port]
    rfl
  | isr p => exact ⟨_, _, _, rfl⟩
  | reset f => exact ⟨_, _, _, rfl⟩

/-- A step is a micro-step of the agent whose turn it is, from the state with the turn's inputs. -/
theorem step_transition {s t : State} (h : step s = .next t) : ∃ pins turns n,
    Transition s.nextTurn
      { s with pins := pins, port := s.portAt s.nextTurn, turns := turns, turnNo := n } t := by
  obtain ⟨-, s₀, rfl, -, htrans⟩ := step_cases h
  obtain ⟨pins, turns, n, heq⟩ := latchTurn_takeTurn s s.nextTurn
  exact ⟨pins, turns, n, heq ▸ htrans⟩

/-! ### The micro-steps of the reload (R91, R92) -/

/-- What a micro-step of the reload can do: A7 adopts and leaves, A4 may wait, and the others write the reload's own
registers and the latches and go to another position. -/
theorem armMicroStep_cases {s t : State} {a : ArmPos} (h : s.armMicroStep a = .next t) :
    (a = .a7 ∧ t = State.leaveArm
      { s with cmp := adoptedValue s.cmpHold (lowByte s.newcmp), armed := true,
               history := s.history ++ [.adopt (adoptedValue s.cmpHold (lowByte s.newcmp))] }) ∨
    (a = .a4 ∧ t = s) ∨
    (a ≠ .a7 ∧ ∃ b snap newcmp latch hold, t = State.gotoArm
      { s with snap := snap, newcmp := newcmp, cntLatch := latch, cmpHold := hold } b) := by
  cases a <;> simp only [armMicroStep_a0, armMicroStep_a1, armMicroStep_a2, armMicroStep_a3, armMicroStep_a4,
    armMicroStep_a5, armMicroStep_a6, armMicroStep_a7, Host.Outcome.next.injEq] at h <;> subst h
  case a7 => exact .inl ⟨rfl, rfl⟩
  case a4 =>
    split
    · exact .inr (.inr ⟨by decide, _, _, _, _, _, rfl⟩)
    · exact .inr (.inl ⟨rfl, rfl⟩)
  all_goals exact .inr (.inr ⟨by decide, _, _, _, _, _, rfl⟩)

/-- What no micro-step of the reload changes. -/
structure ReloadFrame (s t : State) : Prop where
  config : t.config = s.config
  tickCounter : t.tickCounter = s.tickCounter
  phase : t.phase = s.phase
  dlyStart : t.dlyStart = s.dlyStart
  dlyTicks : t.dlyTicks = s.dlyTicks
  oscReq : t.oscReq = s.oscReq
  rawCounter : t.rawCounter = s.rawCounter
  irqPending : t.irqPending = s.irqPending
  irqEnable : t.irqEnable = s.irqEnable
  port : t.port = s.port

theorem armMicroStep_frame {s t : State} {a : ArmPos} (h : s.armMicroStep a = .next t) : ReloadFrame s t := by
  rcases armMicroStep_cases h with ⟨-, rfl⟩ | ⟨-, rfl⟩ | ⟨-, b, snap, newcmp, latch, hold, rfl⟩ <;>
    constructor <;> simp

/-- `CMP` and `ARMED` are written, and an event is recorded, only at A7 (R54). -/
theorem armMicroStep_adoption {s t : State} {a : ArmPos} (h : s.armMicroStep a = .next t) :
    (a = .a7 ∧ t.cmp = adoptedValue s.cmpHold (lowByte s.newcmp) ∧ t.armed = true ∧
      t.history = s.history ++ [.adopt (adoptedValue s.cmpHold (lowByte s.newcmp))]) ∨
    (a ≠ .a7 ∧ t.cmp = s.cmp ∧ t.armed = s.armed ∧ t.history = s.history) := by
  rcases armMicroStep_cases h with ⟨rfl, rfl⟩ | ⟨rfl, rfl⟩ | ⟨ha, b, snap, newcmp, latch, hold, rfl⟩
  · exact .inl (by simp)
  · exact .inr (by simp)
  · exact .inr (by simpa using ha)

/-- Where a micro-step of the reload goes in a pass; the mainline sequencer stays. -/
theorem armMicroStep_position_of_isr {s t : State} {a : ArmPos} (hi : s.iseq = .arm a)
    (h : s.armMicroStep a = .next t) :
    t.mseq = s.mseq ∧ ((a = .a7 ∧ t.iseq = .inc) ∨ (a ≠ .a7 ∧ ∃ b, t.iseq = .arm b)) := by
  rcases armMicroStep_cases h with ⟨rfl, rfl⟩ | ⟨rfl, rfl⟩ | ⟨ha, b, snap, newcmp, latch, hold, rfl⟩
  · simp [leaveArm_of_inIsr, hi]
  · exact ⟨rfl, .inr ⟨by decide, .a4, hi⟩⟩
  · simp [gotoArm_of_inIsr, hi, ha]

/-- Where a micro-step of the reload goes in CLOCK_INIT; the interrupt sequencer stays. -/
theorem armMicroStep_position_of_mainline {s t : State} {a : ArmPos} (hi : s.iseq = .idle) (hm : s.mseq = .arm a)
    (h : s.armMicroStep a = .next t) :
    t.iseq = .idle ∧ ((a = .a7 ∧ t.mseq = .en) ∨ (a ≠ .a7 ∧ ∃ b, t.mseq = .arm b)) := by
  rcases armMicroStep_cases h with ⟨rfl, rfl⟩ | ⟨rfl, rfl⟩ | ⟨ha, b, snap, newcmp, latch, hold, rfl⟩
  · simp [leaveArm_of_mainline, hi]
  · exact ⟨hi, .inr ⟨by decide, .a4, hm⟩⟩
  · simp [gotoArm_of_mainline, hi, ha]

/-! ### The micro-steps that test something -/

/-- A COUNTER step matches on arrival at `CMP` while `ARMED`, or leaves both bits and the history (R142). -/
theorem counterStep_match_cases (s : State) :
    (s.armed = true ∧ counterSucc s.rawCounter = s.cmp ∧ s.counterStep.irqPending = true ∧
      s.counterStep.armed = false) ∨
    (s.counterStep.irqPending = s.irqPending ∧ s.counterStep.armed = s.armed) := by
  by_cases h : Matches s.armed (counterSucc s.rawCounter) s.cmp
  · rw [counterStep_of_match s h]; exact .inl ⟨h.1, h.2, rfl, rfl⟩
  · rw [counterStep_of_no_match s h]; exact .inr ⟨rfl, rfl⟩

/-- A poll of `OSC_OK` waits or goes on to the reload (R90). -/
theorem pollOsc_mseq {s : State} (hm : s.mseq = .osc) : s.pollOsc.mseq = .osc ∨ s.pollOsc.mseq = .arm .a0 := by
  unfold State.pollOsc
  split
  · exact .inr rfl
  · exact .inl hm

/-- A poll of the delay waits and changes nothing, or is complete and responds (R117). -/
theorem delayPoll_cases (s : State) :
    (s.DelayDone ∧ delayPoll s = s.respond 0x3 none) ∨ (¬s.DelayDone ∧ delayPoll s = s) := by
  by_cases h : s.DelayDone
  · exact .inl ⟨h, if_pos h⟩
  · exact .inr ⟨h, if_neg h⟩

/-- The check of a pending timer ends at I_CLR with or without `POLL_REQ` (R112). -/
@[simp] theorem tickCheck_iseq (s : State) : (tickCheck s).iseq = .clr := by
  unfold tickCheck; split <;> rfl

end Sys2Proof.Machine
end

section
/-! ## The phase, the enable and the sequencers stay coherent (R22, R29, R32, R110) -/

namespace Sys2Proof.Machine

/-- Coherence speaks of five elements only. -/
theorem coherent_congr {s t : State} (hs : s.Coherent) (hen : t.irqEnable = s.irqEnable) (hph : t.phase = s.phase)
    (hi : t.iseq = s.iseq) (hm : t.mseq = s.mseq) (ho : t.oscReq = s.oscReq) : t.Coherent := by
  simpa only [State.Coherent, hen, hph, hi, hm, ho] using hs

/-- CLOCK_INIT's positions occur only before it has completed. -/
theorem State.Coherent.uninitialized {s : State} (h : s.Coherent) (hidle : s.mseq ≠ .idle) (hpoll : s.mseq ≠ .poll) :
    s.phase = .uninitialized := by
  obtain ⟨-, -, hrun, -⟩ := h
  cases hp : s.phase with
  | uninitialized => rfl
  | running => exact absurd (hrun hp) (by simp [hidle, hpoll])

/-- A pass occurs only after CLOCK_INIT has completed. -/
theorem State.Coherent.running {s : State} (h : s.Coherent) (hi : s.InIsr) : s.phase = .running := by
  obtain ⟨-, hun, -, -⟩ := h
  cases hp : s.phase with
  | running => rfl
  | uninitialized => exact absurd (hun hp).1 hi

/-- CLOCK_DELAY polls only after CLOCK_INIT has completed. -/
theorem State.Coherent.polling {s : State} (h : s.Coherent) (hm : s.mseq = .poll) : s.phase = .running := by
  obtain ⟨-, hun, -, -⟩ := h
  cases hp : s.phase with
  | running => rfl
  | uninitialized => exact absurd hm (hun hp).2

/-- The interrupt is enabled only after CLOCK_INIT has completed. -/
theorem State.Coherent.running_of_enabled {s : State} (h : s.Coherent) (hen : s.irqEnable = true) :
    s.phase = .running := h.1.1 hen

/-- CLOCK_INIT in progress: any of its positions, with the oscillator requested, keeps coherence. -/
theorem coherent_of_initializing {s t : State} (hs : s.Coherent) (hph : s.phase = .uninitialized)
    (hph' : t.phase = s.phase) (hen : t.irqEnable = s.irqEnable) (hi : t.iseq = .idle) (hm : t.mseq ≠ .poll)
    (ho : t.oscReq = true) : t.Coherent := by
  have hen' : s.irqEnable = false := by simpa [hph] using hs.1
  simp [State.Coherent, hph', hph, hen, hen', hi, hm, ho]

/-- A running machine with the oscillator requested and the interrupt enabled, in a pass or not, at M_IDLE or M_POLL. -/
theorem coherent_of_running {t : State} (hph : t.phase = .running) (hen : t.irqEnable = true) (ho : t.oscReq = true)
    (hm : t.mseq = .idle ∨ t.mseq = .poll) : t.Coherent := by
  simp [State.Coherent, hph, hen, ho, hm]

theorem transition_keeps_coherent {turn : Turn} {s t : State} (ht : Transition turn s t) (hs : s.Coherent) :
    t.Coherent := by
  have ⟨hen, _, hrun, hosc⟩ := hs
  cases ht with
  | counter => exact coherent_congr hs (by simp) (by simp) (by simp) (by simp) (by simp)
  | reset f => simp [State.Coherent]
  | idle => exact hs
  | noEntry => exact hs
  | acceptInit o p _ cw hi hm hp hd hph => exact coherent_of_initializing hs hph rfl rfl hi (by simp) rfl
  | acceptTime o p _ cw hi hm hp hd hph => exact coherent_of_running hph (hen.2 hph) (hosc (.inl hph)) (.inl rfl)
  | acceptSeconds o p _ cw hi hm hp hd hph => exact coherent_of_running hph (hen.2 hph) (hosc (.inl hph)) (.inl rfl)
  | acceptDelay o p _ cw ms hi hm hp hd hph => exact coherent_of_running hph (hen.2 hph) (hosc (.inl hph)) (.inr rfl)
  | osc o p _ hi hm =>
    have hph := hs.uninitialized (by simp [hm]) (by simp [hm])
    have hm' : s.pollOsc.mseq ≠ .poll := by rcases pollOsc_mseq hm with h | h <;> simp [h]
    exact coherent_of_initializing hs hph (by simp) (by simp) (by simpa using hi) hm'
      (by simpa using hosc (.inr (by simp [hm])))
  | mainlineArm o p _ _ a hi hm ha =>
    have hph := hs.uninitialized (by simp [hm]) (by simp [hm])
    have hf := armMicroStep_frame ha
    obtain ⟨hi', hpos⟩ := armMicroStep_position_of_mainline hi hm ha
    have hm' : t.mseq ≠ .poll := by rcases hpos with ⟨-, h⟩ | ⟨-, b, h⟩ <;> simp [h]
    exact coherent_of_initializing hs hph hf.phase hf.irqEnable hi' hm' (hf.oscReq.trans (hosc (.inr (by simp [hm]))))
  | enable o p _ hi hm => exact coherent_of_running rfl rfl (hosc (.inr (by simp [hm]))) (.inl rfl)
  | poll o p _ hi hm =>
    rcases delayPoll_cases s with ⟨-, h⟩ | ⟨-, h⟩ <;> rw [h]
    · have hph := hs.polling hm
      exact coherent_of_running hph (hen.2 hph) (hosc (.inl hph)) (.inl rfl)
    · exact hs
  | entry p _ he =>
    obtain ⟨-, henabled, -⟩ := he
    have hph := hs.running_of_enabled henabled
    exact coherent_of_running hph henabled (hosc (.inl hph)) (hrun hph)
  | isrArm p _ _ a hi ha =>
    have hph := hs.running (by simp [hi])
    have hf := armMicroStep_frame ha
    have hm := (armMicroStep_position_of_isr hi ha).1
    exact coherent_of_running (hf.phase.trans hph) (hf.irqEnable.trans (hen.2 hph)) (hf.oscReq.trans (hosc (.inl hph)))
      (hm ▸ hrun hph)
  | inc p _ hi =>
    have hph := hs.running (by simp [hi])
    exact coherent_of_running hph (hen.2 hph) (hosc (.inl hph)) (hrun hph)
  | chk p _ hi =>
    have hph := hs.running (by simp [hi])
    exact coherent_of_running (by simpa using hph) (by simpa using hen.2 hph) (by simpa using hosc (.inl hph))
      (by simpa using hrun hph)
  | clr p _ hi =>
    have hph := hs.running (by simp [hi])
    exact coherent_of_running hph (hen.2 hph) (hosc (.inl hph)) (hrun hph)
  | ret p _ hi =>
    have hph := hs.running (by simp [hi])
    exact coherent_of_running hph (hen.2 hph) (hosc (.inl hph)) (hrun hph)

/-- Settles O55: latching a turn's inputs touches nothing coherence speaks of, and every micro-step keeps it. -/
theorem stepKeepsPhasesCoherent : Obligations.StepKeepsPhasesCoherent := by
  intro s t hs hstep
  obtain ⟨pins, turns, n, htrans⟩ := step_transition hstep
  exact transition_keeps_coherent htrans hs

end Sys2Proof.Machine
end

section
/-! ## The comparator stays one-shot over passes (R27, R28, R142, R143) -/

namespace Sys2Proof.Machine

/-! ### What the discipline asks at each position -/

theorem oneShot_of_arm {s : State} {a : ArmPos} (hi : s.iseq = .arm a) :
    s.OneShot ↔ s.irqPending = true ∧ s.armed = false := by
  simp [State.OneShot, hi]

theorem oneShot_of_afterReload {s : State} (hi : s.iseq = .inc ∨ s.iseq = .chk ∨ s.iseq = .clr) :
    s.OneShot ↔ s.irqPending = true := by
  rcases hi with hi | hi | hi <;> simp [State.OneShot, hi]

theorem oneShot_of_ret {s : State} (hi : s.iseq = .ret) : s.OneShot ↔ ¬(s.irqPending = true ∧ s.armed = true) := by
  simp [State.OneShot, hi]

theorem oneShot_of_running {s : State} (hi : s.iseq = .idle) (hp : s.phase = .running) :
    s.OneShot ↔ ¬(s.irqPending = true ∧ s.armed = true) := by
  simp [State.OneShot, hi, hp]

theorem oneShot_of_en {s : State} (hi : s.iseq = .idle) (hp : s.phase = .uninitialized) (hm : s.mseq = .en) :
    s.OneShot ↔ s.irqPending ≠ s.armed := by
  simp [State.OneShot, hi, hp, hm]

theorem oneShot_of_beforeAdoption {s : State} (hi : s.iseq = .idle) (hp : s.phase = .uninitialized)
    (hm : s.mseq ≠ .en) : s.OneShot ↔ s.irqPending = false ∧ s.armed = false := by
  cases h : s.mseq with
  | en => exact absurd h hm
  | idle => simp [State.OneShot, hi, hp, h]
  | osc => simp [State.OneShot, hi, hp, h]
  | arm a => simp [State.OneShot, hi, hp, h]
  | poll => simp [State.OneShot, hi, hp, h]

/-- The discipline speaks of five elements only. -/
theorem oneShot_congr {s t : State} (hs : s.OneShot) (hi : t.iseq = s.iseq) (hph : t.phase = s.phase)
    (hm : t.mseq = s.mseq) (hpend : t.irqPending = s.irqPending) (harm : t.armed = s.armed) : t.OneShot := by
  simpa only [State.OneShot, hi, hph, hm, hpend, harm] using hs

/-- Before the first adoption the position of CLOCK_INIT does not matter. -/
theorem oneShot_keeps_beforeAdoption {s t : State} (hs : s.OneShot) (hi : s.iseq = .idle)
    (hp : s.phase = .uninitialized) (hm : s.mseq ≠ .en) (hi' : t.iseq = .idle) (hp' : t.phase = s.phase)
    (hm' : t.mseq ≠ .en) (hpend : t.irqPending = s.irqPending) (harm : t.armed = s.armed) : t.OneShot := by
  rw [oneShot_of_beforeAdoption hi' (hp'.trans hp) hm', hpend, harm]
  exact (oneShot_of_beforeAdoption hi hp hm).1 hs

/-- In a running machine outside a pass the mainline's position does not matter. -/
theorem oneShot_keeps_running {s t : State} (hs : s.OneShot) (hi : s.iseq = .idle) (hp : s.phase = .running)
    (hi' : t.iseq = .idle) (hp' : t.phase = s.phase) (hpend : t.irqPending = s.irqPending) (harm : t.armed = s.armed) :
    t.OneShot := by
  rw [oneShot_of_running hi' (hp'.trans hp), hpend, harm]
  exact (oneShot_of_running hi hp).1 hs

/-! ### The micro-steps -/

/-- A match: it takes `ARMED` from an armed machine and leaves the flag set, which every position but those of a reload
and those before the first adoption allows, and there the machine was not armed. -/
theorem oneShot_of_match {s t : State} (hs : s.OneShot) (harm : s.armed = true) (hi : t.iseq = s.iseq)
    (hph : t.phase = s.phase) (hm : t.mseq = s.mseq) (hpend' : t.irqPending = true) (harm' : t.armed = false) :
    t.OneShot := by
  cases h : s.iseq with
  | arm a => exact absurd ((oneShot_of_arm h).1 hs).2 (by simp [harm])
  | inc => exact (oneShot_of_afterReload (.inl (hi.trans h))).2 hpend'
  | chk => exact (oneShot_of_afterReload (.inr (.inl (hi.trans h)))).2 hpend'
  | clr => exact (oneShot_of_afterReload (.inr (.inr (hi.trans h)))).2 hpend'
  | ret => exact (oneShot_of_ret (hi.trans h)).2 (by simp [harm'])
  | idle =>
    cases hp : s.phase with
    | running => exact (oneShot_of_running (hi.trans h) (hph.trans hp)).2 (by simp [harm'])
    | uninitialized =>
      by_cases hen : s.mseq = .en
      · exact (oneShot_of_en (hi.trans h) (hph.trans hp) (hm.trans hen)).2 (by simp [hpend', harm'])
      · exact absurd ((oneShot_of_beforeAdoption h hp hen).1 hs).2 (by simp [harm])

theorem counterStep_keeps_oneShot {s : State} (hs : s.OneShot) : s.counterStep.OneShot := by
  rcases counterStep_match_cases s with ⟨harm, -, hpend', harm'⟩ | ⟨hpend, harm⟩
  · exact oneShot_of_match hs harm (by simp) (by simp) (by simp) hpend' harm'
  · exact oneShot_congr hs (by simp) (by simp) (by simp) hpend harm

/-- The reload of CLOCK_INIT: its adoption arms a machine with nothing pending. -/
theorem mainlineReload_keeps_oneShot {s t : State} {a : ArmPos} (hs : s.OneShot) (hp : s.phase = .uninitialized)
    (hi : s.iseq = .idle) (hm : s.mseq = .arm a) (h : s.armMicroStep a = .next t) : t.OneShot := by
  have hf := armMicroStep_frame h
  obtain ⟨hi', hpos⟩ := armMicroStep_position_of_mainline hi hm h
  have hbefore : s.mseq ≠ .en := by simp [hm]
  rcases armMicroStep_adoption h with ⟨rfl, -, harm, -⟩ | ⟨ha, -, harm, -⟩
  · obtain ⟨hpend, -⟩ := (oneShot_of_beforeAdoption hi hp hbefore).1 hs
    have hen : t.mseq = .en := by simpa using hpos
    exact (oneShot_of_en hi' (hf.phase.trans hp) hen).2 (by simp [hf.irqPending, hpend, harm])
  · obtain ⟨b, hb⟩ : ∃ b, t.mseq = .arm b := by simpa [ha] using hpos
    exact oneShot_keeps_beforeAdoption hs hi hp hbefore hi' hf.phase (by simp [hb]) hf.irqPending harm

/-- The reload of a pass: the flag stays set, and the machine disarmed up to the adoption. -/
theorem isrReload_keeps_oneShot {s t : State} {a : ArmPos} (hs : s.OneShot) (hi : s.iseq = .arm a)
    (h : s.armMicroStep a = .next t) : t.OneShot := by
  have hf := armMicroStep_frame h
  obtain ⟨hpend, harm⟩ := (oneShot_of_arm hi).1 hs
  rcases (armMicroStep_position_of_isr hi h).2 with ⟨-, hi'⟩ | ⟨ha, b, hi'⟩
  · exact (oneShot_of_afterReload (.inl hi')).2 (hf.irqPending.trans hpend)
  · rcases armMicroStep_adoption h with ⟨ha', -⟩ | ⟨-, -, harm', -⟩
    · exact absurd ha' ha
    · exact (oneShot_of_arm hi').2 ⟨hf.irqPending.trans hpend, harm'.trans harm⟩

theorem transition_keeps_oneShot {turn : Turn} {s t : State} (ht : Transition turn s t) (hc : s.Coherent)
    (hs : s.OneShot) : t.OneShot := by
  cases ht with
  | counter => exact counterStep_keeps_oneShot hs
  | reset f => exact (oneShot_of_beforeAdoption rfl rfl (by simp)).2 ⟨rfl, rfl⟩
  | idle => exact hs
  | noEntry => exact hs
  | acceptInit o p _ cw hi hm hp hd hph =>
    exact oneShot_keeps_beforeAdoption hs hi hph (by simp [hm]) hi rfl (by simp) rfl rfl
  | acceptTime o p _ cw hi hm hp hd hph => exact oneShot_keeps_running hs hi hph hi rfl rfl rfl
  | acceptSeconds o p _ cw hi hm hp hd hph => exact oneShot_keeps_running hs hi hph hi rfl rfl rfl
  | acceptDelay o p _ cw ms hi hm hp hd hph => exact oneShot_keeps_running hs hi hph hi rfl rfl rfl
  | osc o p _ hi hm =>
    have hph := hc.uninitialized (by simp [hm]) (by simp [hm])
    have hm' : s.pollOsc.mseq ≠ .en := by rcases pollOsc_mseq hm with h | h <;> simp [h]
    exact oneShot_keeps_beforeAdoption hs hi hph (by simp [hm]) (by simpa using hi) (by simp) hm' (by simp) (by simp)
  | mainlineArm o p _ _ a hi hm ha =>
    exact mainlineReload_keeps_oneShot hs (hc.uninitialized (by simp [hm]) (by simp [hm])) hi hm ha
  | enable o p _ hi hm =>
    have hph := hc.uninitialized (by simp [hm]) (by simp [hm])
    have hne := (oneShot_of_en hi hph hm).1 hs
    exact (oneShot_of_running (s := initEnable s) hi rfl).2 fun ⟨hpend, harm⟩ => hne (hpend.trans harm.symm)
  | poll o p _ hi hm =>
    have hph := hc.polling hm
    exact oneShot_keeps_running hs hi hph (by simpa using hi) (by simp) (by simp) (by simp)
  | entry p _ he =>
    obtain ⟨hpend, hen, hi⟩ := he
    have hnot := (oneShot_of_running hi (hc.running_of_enabled hen)).1 hs
    exact (oneShot_of_arm rfl).2 ⟨hpend, by simpa [hpend] using hnot⟩
  | isrArm p _ _ a hi ha => exact isrReload_keeps_oneShot hs hi ha
  | inc p _ hi => exact (oneShot_of_afterReload (.inr (.inl rfl))).2 ((oneShot_of_afterReload (.inl hi)).1 hs)
  | chk p _ hi =>
    have hpend := (oneShot_of_afterReload (.inr (.inl hi))).1 hs
    exact (oneShot_of_afterReload (.inr (.inr (tickCheck_iseq s)))).2 (by simpa using hpend)
  | clr p _ hi => exact (oneShot_of_ret rfl).2 (by simp)
  | ret p _ hi =>
    have hph := hc.running (by simp [hi])
    exact (oneShot_of_running (s := s.interruptReturn) rfl hph).2 ((oneShot_of_ret hi).1 hs)

/-- Settles O56: the discipline is kept by every micro-step of a coherent machine. -/
theorem stepKeepsTheComparatorOneShot : Obligations.StepKeepsTheComparatorOneShot := by
  intro s t hc hs hstep
  obtain ⟨pins, turns, n, htrans⟩ := step_transition hstep
  exact transition_keeps_oneShot htrans hc hs

end Sys2Proof.Machine
end

section
/-! ## Who writes what: the rules of the whole machine (R21 to R44, R144 to R150) -/

namespace Sys2Proof.Machine

section

variable {turn : Turn} {s t : State}

/-! ### `TickCounter`, the phase, the enable, the oscillator request, `RawCounter` -/

theorem transition_tickCounter (ht : Transition turn s t) :
    t.tickCounter = s.tickCounter ∨
    (∃ p, turn = .isr p ∧ s.iseq = .inc ∧ t.tickCounter = (s.tickCounter + 1) % 2 ^ s.config.tickW) ∨
    (∃ f, turn = .reset f ∧ t.tickCounter = 0) := by
  cases ht with
  | inc p _ hi => exact .inr (.inl ⟨p, rfl, hi, rfl⟩)
  | reset f => exact .inr (.inr ⟨f, rfl, rfl⟩)
  | mainlineArm o p _ _ a hi hm ha => exact .inl (armMicroStep_frame ha).tickCounter
  | isrArm p _ _ a hi ha => exact .inl (armMicroStep_frame ha).tickCounter
  | _ => exact .inl (by simp)

theorem transition_phase_irqEnable (ht : Transition turn s t) :
    (t.phase = s.phase ∧ t.irqEnable = s.irqEnable) ∨
    (∃ o p, turn = .mainline o p ∧ s.iseq = .idle ∧ s.mseq = .en ∧ t.phase = .running ∧ t.irqEnable = true) ∨
    (∃ f, turn = .reset f ∧ t.phase = .uninitialized ∧ t.irqEnable = false) := by
  cases ht with
  | enable o p _ hi hm => exact .inr (.inl ⟨o, p, rfl, hi, hm, rfl, rfl⟩)
  | reset f => exact .inr (.inr ⟨f, rfl, rfl, rfl⟩)
  | mainlineArm o p _ _ a hi hm ha => exact .inl ⟨(armMicroStep_frame ha).phase, (armMicroStep_frame ha).irqEnable⟩
  | isrArm p _ _ a hi ha => exact .inl ⟨(armMicroStep_frame ha).phase, (armMicroStep_frame ha).irqEnable⟩
  | _ => exact .inl (by simp)

theorem transition_oscReq (ht : Transition turn s t) :
    t.oscReq = s.oscReq ∨
    (∃ o p cw, turn = .mainline o p ∧ s.CanAccept ∧ s.phase = .uninitialized ∧ s.port = some cw ∧
      decodeCommand s.config cw = .ok .clockInit ∧ t.oscReq = true ∧ t.mseq = .osc) ∨
    (∃ f, turn = .reset f ∧ t.oscReq = false) := by
  cases ht with
  | acceptInit o p _ cw hi hm hp hd hph => exact .inr (.inl ⟨o, p, cw, rfl, ⟨hm, hi⟩, hph, hp, hd, rfl, rfl⟩)
  | reset f => exact .inr (.inr ⟨f, rfl, rfl⟩)
  | mainlineArm o p _ _ a hi hm ha => exact .inl (armMicroStep_frame ha).oscReq
  | isrArm p _ _ a hi ha => exact .inl (armMicroStep_frame ha).oscReq
  | _ => exact .inl (by simp)

theorem transition_config (ht : Transition turn s t) : t.config = s.config := by
  cases ht with
  | mainlineArm o p _ _ a hi hm ha => exact (armMicroStep_frame ha).config
  | isrArm p _ _ a hi ha => exact (armMicroStep_frame ha).config
  | _ => simp

theorem transition_rawCounter (ht : Transition turn s t) :
    t.rawCounter = if turn = .counter then s.rawCounter + 1 else s.rawCounter := by
  cases ht with
  | counter => exact counterStep_rawCounter s
  | mainlineArm o p _ _ a hi hm ha => exact (armMicroStep_frame ha).rawCounter
  | isrArm p _ _ a hi ha => exact (armMicroStep_frame ha).rawCounter
  | _ => simp

/-! ### `CMP`, `ARMED` and `IRQ_PENDING`: adoption, match, clear -/

/-- What a micro-step of the reload makes of `CMP`. -/
theorem armMicroStep_cmp {a : ArmPos} (hpos : s.armPos = some a) (h : s.armMicroStep a = .next t) :
    t.cmp = s.cmp ∨
    (s.armPos = some .a7 ∧ t.cmp = s.cmpHold ++ lowByte s.newcmp ∧ t.armed = true ∧
      t.history = s.history ++ [.adopt t.cmp]) := by
  rcases armMicroStep_adoption h with ⟨rfl, hcmp, harm, hhist⟩ | ⟨-, hcmp, -⟩
  · exact .inr ⟨hpos, hcmp, harm, hcmp ▸ hhist⟩
  · exact .inl hcmp

/-- What a micro-step of the reload makes of `ARMED`. -/
theorem armMicroStep_armed {a : ArmPos} (hpos : s.armPos = some a) (h : s.armMicroStep a = .next t) :
    t.armed = s.armed ∨ (t.armed = true ∧ s.armPos = some .a7) := by
  rcases armMicroStep_adoption h with ⟨rfl, -, harm, -⟩ | ⟨-, -, harm, -⟩
  · exact .inr ⟨harm, hpos⟩
  · exact .inl harm

theorem transition_cmp (ht : Transition turn s t) (hr : ∀ f, turn ≠ .reset f) :
    t.cmp = s.cmp ∨
    (s.armPos = some .a7 ∧ t.cmp = s.cmpHold ++ lowByte s.newcmp ∧ t.armed = true ∧
      t.history = s.history ++ [.adopt t.cmp]) := by
  cases ht with
  | reset f => exact absurd rfl (hr f)
  | mainlineArm o p _ _ a hi hm ha => exact armMicroStep_cmp (armPos_of_mainline hi hm) ha
  | isrArm p _ _ a hi ha => exact armMicroStep_cmp (armPos_of_isr hi) ha
  | _ => exact .inl (by simp)

theorem transition_irqPending (ht : Transition turn s t) (hr : ∀ f, turn ≠ .reset f) :
    t.irqPending = s.irqPending ∨
    (t.irqPending = true ∧ turn = .counter ∧ s.armed = true ∧ s.rawCounter + 1 = s.cmp) ∨
    (t.irqPending = false ∧ s.iseq = .clr ∧ ∃ p, turn = .isr p) := by
  cases ht with
  | counter =>
    rcases counterStep_match_cases s with ⟨harm, hcmp, hpend, -⟩ | ⟨hpend, -⟩
    · exact .inr (.inl ⟨hpend, rfl, harm, hcmp⟩)
    · exact .inl hpend
  | clr p _ hi => exact .inr (.inr ⟨rfl, hi, p, rfl⟩)
  | reset f => exact absurd rfl (hr f)
  | mainlineArm o p _ _ a hi hm ha => exact .inl (armMicroStep_frame ha).irqPending
  | isrArm p _ _ a hi ha => exact .inl (armMicroStep_frame ha).irqPending
  | _ => exact .inl (by simp)

theorem transition_armed (ht : Transition turn s t) (hr : ∀ f, turn ≠ .reset f) :
    t.armed = s.armed ∨ (t.armed = true ∧ s.armPos = some .a7) ∨
    (t.armed = false ∧ turn = .counter ∧ s.rawCounter + 1 = s.cmp) := by
  cases ht with
  | counter =>
    rcases counterStep_match_cases s with ⟨-, hcmp, -, harm⟩ | ⟨-, harm⟩
    · exact .inr (.inr ⟨harm, rfl, hcmp⟩)
    · exact .inl harm
  | reset f => exact absurd rfl (hr f)
  | mainlineArm o p _ _ a hi hm ha => exact (armMicroStep_armed (armPos_of_mainline hi hm) ha).imp_right .inl
  | isrArm p _ _ a hi ha => exact (armMicroStep_armed (armPos_of_isr hi) ha).imp_right .inl
  | _ => exact .inl (by simp)

/-! ### The interrupt context (R30, R44, R149) -/

/-- In the interrupt context a turn of MAINLINE changes nothing. -/
theorem transition_mainline_frozen {o : Option Nat} {p : Pins} (ht : Transition (.mainline o p) s t) (hs : s.InIsr) :
    t = s := by
  cases ht with
  | idle => rfl
  | _ => exact absurd ‹s.iseq = .idle› hs

/-- What no step of another agent changes in the interrupt context. -/
structure MainlineFrozen (s t : State) : Prop where
  mseq : t.mseq = s.mseq
  dlyStart : t.dlyStart = s.dlyStart
  dlyTicks : t.dlyTicks = s.dlyTicks
  phase : t.phase = s.phase
  irqEnable : t.irqEnable = s.irqEnable
  oscReq : t.oscReq = s.oscReq
  port : t.port = s.port

theorem transition_freezes_mainline (ht : Transition turn s t) (hs : s.InIsr) (hr : ∀ f, turn ≠ .reset f) :
    MainlineFrozen s t := by
  cases ht with
  | reset f => exact absurd rfl (hr f)
  | isrArm p _ _ a hi ha =>
    have hf := armMicroStep_frame ha
    exact ⟨(armMicroStep_position_of_isr hi ha).1, hf.dlyStart, hf.dlyTicks, hf.phase, hf.irqEnable, hf.oscReq, hf.port⟩
  | entry p _ he =>
    obtain ⟨-, -, hi⟩ := he
    exact absurd hi hs
  | counter => constructor <;> simp
  | idle => constructor <;> rfl
  | inc => constructor <;> rfl
  | chk => constructor <;> simp
  | clr => constructor <;> rfl
  | ret => constructor <;> rfl
  | _ => exact absurd ‹s.iseq = .idle› hs

theorem transition_entry (ht : Transition turn s t) (hi : s.iseq = .idle) (hi' : t.iseq ≠ .idle) :
    t.iseq = .arm .a0 ∧ s.irqPending = true ∧ s.irqEnable = true ∧ t.history = s.history ++ [.irqEntry] := by
  cases ht with
  | entry p _ he =>
    obtain ⟨hpend, hen, -⟩ := he
    exact ⟨rfl, hpend, hen, rfl⟩
  | mainlineArm o p _ _ a _ hm ha => exact absurd (armMicroStep_position_of_mainline hi hm ha).1 hi'
  | isrArm p _ _ a ha => exact absurd (hi.symm.trans ha) (by simp)
  | chk p _ h => exact absurd (hi.symm.trans h) (by simp)
  | inc p _ h => exact absurd (hi.symm.trans h) (by simp)
  | clr p _ h => exact absurd (hi.symm.trans h) (by simp)
  | ret p _ h => exact absurd (hi.symm.trans h) (by simp)
  | reset f => exact absurd rfl hi'
  | _ => exact absurd (by simpa using hi) hi'

theorem transition_return (ht : Transition turn s t) (hs : s.InIsr) (hi' : t.iseq = .idle) :
    (s.iseq = .ret ∧ t.history = s.history ++ [.irqRet]) ∨ ∃ f, turn = .reset f := by
  cases ht with
  | ret p _ hi => exact .inl ⟨hi, rfl⟩
  | reset f => exact .inr ⟨f, rfl⟩
  | counter => exact absurd (by simpa using hi') hs
  | idle => exact absurd hi' hs
  | entry p _ he =>
    obtain ⟨-, -, hi⟩ := he
    exact absurd hi hs
  | isrArm p _ _ a hi ha =>
    rcases (armMicroStep_position_of_isr hi ha).2 with ⟨-, h⟩ | ⟨-, b, h⟩ <;> simp [h] at hi'
  | inc => simp at hi'
  | chk => simp at hi'
  | clr => simp at hi'
  | _ => exact absurd ‹s.iseq = .idle› hs

/-! ### The delay (R33, R120) -/

theorem transition_poll (ht : Transition turn s t) (hm : s.mseq = .poll) (hr : ∀ f, turn ≠ .reset f) :
    t.dlyStart = s.dlyStart ∧ t.dlyTicks = s.dlyTicks ∧
      (t.mseq = .poll ∨
        (t.mseq = .idle ∧ s.iseq = .idle ∧ s.DelayDone ∧ t.history = s.history ++ [.rsp 0x3 none])) := by
  cases ht with
  | reset f => exact absurd rfl (hr f)
  | poll o p _ hi =>
    rcases delayPoll_cases s with ⟨hdone, h⟩ | ⟨-, h⟩ <;> rw [h]
    · exact ⟨rfl, rfl, .inr ⟨rfl, hi, hdone, rfl⟩⟩
    · exact ⟨rfl, rfl, .inl hm⟩
  | isrArm p _ _ a hi ha =>
    have hf := armMicroStep_frame ha
    exact ⟨hf.dlyStart, hf.dlyTicks, .inl ((armMicroStep_position_of_isr hi ha).1.trans hm)⟩
  | counter => simpa using Or.inl hm
  | idle => exact ⟨rfl, rfl, .inl hm⟩
  | noEntry => exact ⟨rfl, rfl, .inl hm⟩
  | entry => exact ⟨rfl, rfl, .inl hm⟩
  | inc => exact ⟨rfl, rfl, .inl hm⟩
  | chk => simpa using Or.inl hm
  | clr => exact ⟨rfl, rfl, .inl hm⟩
  | ret => exact ⟨rfl, rfl, .inl hm⟩
  | _ => exact absurd (hm.symm.trans ‹_›) (by simp)

end

/-! ### The statements about every step -/

/-- Settles O43: only the micro-step I_INC and a reset write `TickCounter`. -/
theorem onlyIncrementWritesTickCounter : Obligations.OnlyIncrementWritesTickCounter := by
  intro s t hstep
  obtain ⟨pins, turns, n, htrans⟩ := step_transition hstep
  exact (transition_tickCounter htrans :)

/-- Settles O44: M_EN writes the phase and the enable, the acceptance of CLOCK_INIT requests the oscillator, and the
word accepted is the one the port holds once the offer is in. -/
theorem onlyClockInitEnables : Obligations.OnlyClockInitEnables := by
  intro s t hstep
  obtain ⟨pins, turns, n, htrans⟩ := step_transition hstep
  refine ⟨(transition_phase_irqEnable htrans :), (transition_oscReq htrans :).imp_right (Or.imp_left ?_)⟩
  rintro ⟨o, p, cw, hturn, hacc, hph, hport, hd, hosc, hm⟩
  exact ⟨o, p, cw, hturn, hacc, hph, by simpa [hturn, State.portAt] using hport, hd, hosc, hm⟩

/-- Settles O45: only the COUNTER step writes `RawCounter`, and nothing writes the parameters. -/
theorem onlyCounterWritesRawCounter : Obligations.OnlyCounterWritesRawCounter := by
  intro s t hstep
  obtain ⟨pins, turns, n, htrans⟩ := step_transition hstep
  exact ⟨(transition_config htrans :), (transition_rawCounter htrans :)⟩

/-- Settles O46: but for a reset, only A7 writes `CMP`. -/
theorem onlyAdoptionWritesCmp : Obligations.OnlyAdoptionWritesCmp := by
  intro s t hstep hr
  obtain ⟨pins, turns, n, htrans⟩ := step_transition hstep
  exact (transition_cmp htrans hr :)

/-- Settles O47: a bit that changed changed by a match, by I_CLR or by an adoption. -/
theorem whatSetsAndClearsTheInterruptBits : Obligations.WhatSetsAndClearsTheInterruptBits := by
  intro s t hstep hr
  obtain ⟨pins, turns, n, htrans⟩ := step_transition hstep
  have hpend := transition_irqPending htrans hr
  have harm : t.armed = s.armed ∨ (t.armed = true ∧ s.armPos = some .a7) ∨
      (t.armed = false ∧ s.nextTurn = .counter ∧ s.rawCounter + 1 = s.cmp) := (transition_armed htrans hr :)
  refine ⟨fun h0 h1 => ?_, fun h1 h0 => ?_, fun h0 h1 => ?_, fun h1 h0 => ?_⟩
  · simpa [h0, h1] using hpend
  · simpa [h0, h1] using hpend
  · simpa [h0, h1] using harm
  · simpa [h0, h1] using harm

/-- Settles O48: the micro-steps of a pass and the COUNTER step leave the mainline alone, and the port holds what the
turn's inputs left on it. -/
theorem mainlineFrozenInInterruptContext : Obligations.MainlineFrozenInInterruptContext := by
  intro s t hisr hstep hr
  obtain ⟨pins, turns, n, htrans⟩ := step_transition hstep
  have hf := transition_freezes_mainline htrans hisr hr
  have hport : t.port = s.portAt s.nextTurn := hf.port
  refine ⟨⟨hf.mseq, hf.dlyStart, hf.dlyTicks, hf.phase, hf.irqEnable, hf.oscReq⟩, fun o p hturn => ?_,
    fun cw hcw => ?_, fun hnone => ⟨fun o p hturn => ?_, fun hother => ?_⟩⟩
  · generalize s.nextTurn = turn at htrans hturn
    subst hturn
    rw [transition_mainline_frozen htrans hisr]
  · rw [hport, portAt_of_some hcw]
  · rw [hport, hturn, portAt_mainline_of_none hnone]
  · rw [hport, portAt_of_ne_mainline hother, hnone]

/-- Settles O49: `ISEQ` leaves I_IDLE by entry, and comes back by I_RET or a reset. -/
theorem interruptContextOnlyByEntryAndReturn : Obligations.InterruptContextOnlyByEntryAndReturn := by
  intro s t hstep
  obtain ⟨pins, turns, n, htrans⟩ := step_transition hstep
  exact ⟨(transition_entry htrans :), (transition_return htrans :)⟩

/-- Settles O50: only the poll that finds the delay complete leaves M_POLL. -/
theorem delayEndsOnlyByItsTest : Obligations.DelayEndsOnlyByItsTest := by
  intro s t hm hstep hr
  obtain ⟨pins, turns, n, htrans⟩ := step_transition hstep
  exact (transition_poll htrans hm hr :)

end Sys2Proof.Machine
end

section
/-! ## Which operation a turn runs, and that every step goes on (R31, R43, R75, R140, R141) -/

namespace Sys2Proof.Machine

/-! ### A turn runs the operation in progress -/

theorem step_of_turn {s : State} {t : Turn} (hl : s.config.Legal) (ht : s.nextTurn = t) :
    step s = runTurn t s.takeTurn.2 := ht ▸ step_of_legal hl

theorem mainlineStep_of_operation {s : State} {i : Instr} (hi : s.iseq = .idle) (h : s.mseq.operation = some i) :
    mainlineStep s = exec i s := by
  simp [mainlineStep, hi, h]

theorem mainlineStep_of_no_word {s : State} (hi : s.iseq = .idle) (hm : s.mseq = .idle) (hp : s.port = none) :
    mainlineStep s = .next s := by
  simp [mainlineStep, hi, hm, MSeq.operation, hp]

theorem mainlineStep_of_decoded {s : State} {cw : Nat} {i : Instr} (hi : s.iseq = .idle) (hm : s.mseq = .idle)
    (hp : s.port = some cw) (hd : decodeCommand s.config cw = .ok i) : mainlineStep s = exec i (s.accept cw) := by
  simp [mainlineStep, hi, hm, MSeq.operation, hp, acceptCommand, hd]

theorem isrStep_of_pass {s : State} {i : ISeq} (hi : s.iseq = i) (h : i ≠ .idle) : isrStep s = exec i.operation s := by
  subst hi; exact if_pos (.inl h)

theorem isrStep_of_idle {s : State} (h : s.iseq = .idle) :
    isrStep s = if s.irqPending = true ∧ s.irqEnable = true then exec .tickIsr s else .next s := by
  simp [isrStep, State.EntryEnabled, h, ISeq.operation]

/-! ### Every micro-step of `Transition` is one the machine takes -/

theorem mainlineStep_of_transition {s t : State} {o : Option Nat} {p : Pins} (ht : Transition (.mainline o p) s t) :
    mainlineStep s = .next t := by
  cases ht with
  | idle _ _ _ h =>
    rcases h with h | ⟨hm, hp⟩
    · exact if_pos h
    · by_cases hi : s.iseq = .idle
      · exact mainlineStep_of_no_word hi hm hp
      · exact if_pos hi
  | acceptInit _ _ _ cw hi hm hp hd hph =>
    rw [mainlineStep_of_decoded hi hm hp hd]; simp [exec, execClockInit, hi, hm, hph]
  | acceptTime _ _ _ cw hi hm hp hd hph =>
    rw [mainlineStep_of_decoded hi hm hp hd]; simp [exec, execClockTime, State.CanAccept, hi, hm, hph]
  | acceptSeconds _ _ _ cw hi hm hp hd hph =>
    rw [mainlineStep_of_decoded hi hm hp hd]; simp [exec, execClockSeconds, State.CanAccept, hi, hm, hph]
  | acceptDelay _ _ _ cw ms hi hm hp hd hph =>
    rw [mainlineStep_of_decoded hi hm hp hd]; simp [exec, execClockDelay, hi, hm, hph]
  | osc _ _ _ hi hm =>
    rw [mainlineStep_of_operation hi (by rw [hm]; rfl)]; simp [exec, execInitClockSource, hi, hm]
  | mainlineArm _ _ _ _ a hi hm h =>
    rw [mainlineStep_of_operation hi (by rw [hm]; rfl), exec_arm_operation (armPos_of_mainline hi hm), h]
  | enable _ _ _ hi hm =>
    rw [mainlineStep_of_operation hi (by rw [hm]; rfl)]; simp [exec, execClockInit, hi, hm]
  | poll _ _ _ hi hm =>
    rw [mainlineStep_of_operation hi (by rw [hm]; rfl)]; simp [exec, execClockDelay, hi, hm]

theorem isrStep_of_transition {s t : State} {p : Pins} (ht : Transition (.isr p) s t) : isrStep s = .next t := by
  cases ht with
  | noEntry _ _ hi h => exact if_neg (by simp [hi, h])
  | entry _ _ h =>
    obtain ⟨hpend, hen, hi⟩ := h
    rw [isrStep_of_idle hi]; simp [exec, execTickIsr, State.EntryEnabled, hi, hpend, hen]
  | isrArm _ _ _ a hi h => rw [isrStep_of_pass hi (by simp), ISeq.operation, exec_arm_operation (armPos_of_isr hi), h]
  | inc _ _ hi => rw [isrStep_of_pass hi (by simp)]; simp [ISeq.operation, exec, execTickIsr, hi]
  | chk _ _ hi => rw [isrStep_of_pass hi (by simp)]; simp [ISeq.operation, exec, execTickIsr, hi]
  | clr _ _ hi => rw [isrStep_of_pass hi (by simp)]; simp [ISeq.operation, exec, execTickIsr, hi]
  | ret _ _ hi => rw [isrStep_of_pass hi (by simp)]; simp [ISeq.operation, exec, execTickIsr, hi]

theorem runTurn_of_transition {s t : State} {turn : Turn} (ht : Transition turn (s.latchTurn turn) t) :
    runTurn turn s = .next t := by
  cases turn with
  | counter => cases ht; rfl
  | mainline o p => exact mainlineStep_of_transition ht
  | isr p => exact isrStep_of_transition ht
  | reset f => cases ht; rfl

/-! ### Some micro-step is always there -/

/-- The operation in progress has a micro-step at each position of the mainline sequencer (R141). -/
theorem exists_transition_of_busy {s : State} (o : Option Nat) (p : Pins) (hi : s.iseq = .idle) (hm : s.mseq ≠ .idle) :
    ∃ t, Transition (.mainline o p) s t := by
  cases h : s.mseq with
  | idle => exact absurd h hm
  | osc => exact ⟨_, .osc o p s hi h⟩
  | arm a =>
    obtain ⟨t, ht⟩ := armMicroStep_next s a
    exact ⟨t, .mainlineArm o p s t a hi h ht⟩
  | en => exact ⟨_, .enable o p s hi h⟩
  | poll => exact ⟨_, .poll o p s hi h⟩

/-- A word with a meaning in the phase is accepted (R75). -/
theorem exists_transition_of_meaningful {s : State} {cw : Nat} (o : Option Nat) (p : Pins) (hi : s.iseq = .idle)
    (hm : s.mseq = .idle) (hp : s.port = some cw) (h : Meaningful s.config s.phase cw) :
    ∃ t, Transition (.mainline o p) s t := by
  unfold Meaningful at h
  cases hd : decodeCommand s.config cw with
  | error e => simp [hd] at h
  | ok i =>
    simp only [hd] at h
    have hc := isCommand_of_decodeCommand hd
    cases i with
    | clockInit => exact ⟨_, .acceptInit o p s cw hi hm hp hd (by simpa using h)⟩
    | clockTime => exact ⟨_, .acceptTime o p s cw hi hm hp hd (by simpa using h)⟩
    | clockSeconds => exact ⟨_, .acceptSeconds o p s cw hi hm hp hd (by simpa using h)⟩
    | clockDelay ms => exact ⟨_, .acceptDelay o p s cw ms hi hm hp hd (by simpa using h)⟩
    | initClockSource => cases hc
    | readRawCounter => cases hc
    | armNextCompare => cases hc
    | tickIsr => cases hc

theorem exists_transition_of_mainline {s : State} (o : Option Nat) (p : Pins)
    (h : s.CanAccept → ∀ cw, s.port = some cw → Meaningful s.config s.phase cw) :
    ∃ t, Transition (.mainline o p) s t := by
  by_cases hi : s.iseq = .idle
  · by_cases hm : s.mseq = .idle
    · cases hp : s.port with
      | none => exact ⟨s, .idle o p s (.inr ⟨hm, hp⟩)⟩
      | some cw => exact exists_transition_of_meaningful o p hi hm hp (h ⟨hm, hi⟩ cw hp)
    · exact exists_transition_of_busy o p hi hm
  · exact ⟨s, .idle o p s (.inl hi)⟩

/-- ISR's turn has its outcome at every position of a pass and outside it (R140, R141). -/
theorem exists_transition_of_isr (s : State) (p : Pins) : ∃ t, Transition (.isr p) s t := by
  cases h : s.iseq with
  | idle =>
    by_cases he : s.EntryEnabled
    · exact ⟨_, .entry p s he⟩
    · exact ⟨s, .noEntry p s h he⟩
  | arm a =>
    obtain ⟨t, ht⟩ := armMicroStep_next s a
    exact ⟨t, .isrArm p s t a h ht⟩
  | inc => exact ⟨_, .inc p s h⟩
  | chk => exact ⟨_, .chk p s h⟩
  | clr => exact ⟨_, .clr p s h⟩
  | ret => exact ⟨_, .ret p s h⟩

/-! ### What is on the port stays there -/

/-- While BUSY nothing takes the word from the port. -/
theorem transition_busy_port {s t : State} {o : Option Nat} {p : Pins} (ht : Transition (.mainline o p) s t)
    (hm : s.mseq ≠ .idle) : t.port = s.port := by
  cases ht with
  | idle => rfl
  | osc => simp
  | mainlineArm _ _ _ _ a hi _ ha => exact armMicroStep_port ha
  | enable => rfl
  | poll => simp
  | _ => exact absurd ‹s.mseq = .idle› hm

theorem transition_isr_port {s t : State} {p : Pins} (ht : Transition (.isr p) s t) : t.port = s.port := by
  cases ht with
  | isrArm _ _ _ a hi ha => exact armMicroStep_port ha
  | _ => simp

/-! ### The statements -/

/-- Settles O7: the turn's micro-step exists, for an accepted word because it has a meaning. -/
theorem onlyMeaninglessRequestsStop : Obligations.OnlyMeaninglessRequestsStop := by
  intro s hl hreq
  rw [step_of_legal hl]
  suffices h : ∃ t, Transition s.nextTurn (s.takeTurn.2.latchTurn s.nextTurn) t from
    h.imp fun _ => runTurn_of_transition
  obtain ⟨pins, turns, n, h₀⟩ := latchTurn_takeTurn s s.nextTurn
  rw [h₀]
  cases hturn : s.nextTurn with
  | counter => exact ⟨_, .counter _⟩
  | mainline o p => rw [hturn] at hreq; exact exists_transition_of_mainline o p hreq
  | isr p => exact exists_transition_of_isr _ p
  | reset f => exact ⟨_, .reset f _⟩

/-- Settles O5: the mainline's position names the operation, and while BUSY its micro-step leaves the port alone. -/
theorem stepRunsTheMainlineOperation : Obligations.StepRunsTheMainlineOperation := by
  intro s o p hl hturn hi s₀
  have hstep : step s = mainlineStep s₀ := step_of_turn hl hturn
  obtain ⟨pins, turns, n, h₀⟩ := latchTurn_takeTurn s (.mainline o p)
  have hi₀ : s₀.iseq = .idle := (congrArg State.iseq h₀ :).trans hi
  have hm₀ : s₀.mseq = s.mseq := (congrArg State.mseq h₀ :)
  have hport : s₀.port = s.portAt (.mainline o p) := (congrArg State.port h₀ :)
  have run {m : MSeq} {i : Instr} (hm : s.mseq = m) (h : m.operation = some i) : step s = exec i s₀ :=
    hstep.trans (mainlineStep_of_operation hi₀ (by rw [hm₀, hm, h]))
  refine ⟨fun hm => run hm rfl, ?_, ?_, fun hm => run hm rfl, fun hm => run hm rfl, fun hm hnone => ?_, fun hbusy => ?_⟩
  · rintro (hm | hm | hm) <;> exact run hm rfl
  · rintro (hm | hm | hm | hm | hm) <;> exact run hm rfl
  · exact hstep.trans (mainlineStep_of_no_word hi₀ (hm₀.trans hm) (hport.trans hnone))
  · have hbusy₀ : s₀.mseq ≠ .idle := hm₀ ▸ hbusy
    obtain ⟨t, ht⟩ := exists_transition_of_busy o p hi₀ hbusy₀
    have hport' := (transition_busy_port ht hbusy₀).trans hport
    exact ⟨t, hstep.trans (mainlineStep_of_transition ht), fun cw hcw => hport'.trans (portAt_of_some hcw _),
      fun hnone => hport'.trans (portAt_mainline_of_none hnone o p)⟩

/-- Settles O6: the interrupt sequencer's position names the operation, and no micro-step of ISR touches the port. -/
theorem stepRunsTheInterruptOperation : Obligations.StepRunsTheInterruptOperation := by
  intro s p hl hturn s₀
  have hstep : step s = isrStep s₀ := step_of_turn hl hturn
  obtain ⟨pins, turns, n, h₀⟩ := latchTurn_takeTurn s (.isr p)
  have hi₀ : s₀.iseq = s.iseq := (congrArg State.iseq h₀ :)
  have hport : s₀.port = s.port := (congrArg State.port h₀ :)
  have run {i : ISeq} (hi : s.iseq = i) (h : i ≠ .idle) : step s = exec i.operation s₀ :=
    hstep.trans (isrStep_of_pass (hi₀.trans hi) h)
  refine ⟨?_, ?_, ?_, fun hi => ?_, ?_⟩
  · rintro (hi | hi | hi) <;> exact run hi (by simp)
  · rintro (hi | hi | hi | hi | hi) <;> exact run hi (by simp)
  · rintro (hi | hi | hi | hi) <;> exact run hi (by simp)
  · have hpend : s₀.irqPending = s.irqPending := (congrArg State.irqPending h₀ :)
    have hen : s₀.irqEnable = s.irqEnable := (congrArg State.irqEnable h₀ :)
    rw [hstep, isrStep_of_idle (hi₀.trans hi), hpend, hen]
  · obtain ⟨t, ht⟩ := exists_transition_of_isr s₀ p
    exact ⟨t, hstep.trans (isrStep_of_transition ht), (transition_isr_port ht).trans hport⟩

end Sys2Proof.Machine
end

section
/-! ## No rule reads the history (R41)

The step commutes with events put in front of the history. A state is its own history put in front of the same state
with an empty one, so a step on any history does what the step on the empty history does. -/

namespace Sys2Proof.Machine

/-- The same state after the events `h`. -/
def State.after (h : List Event) (s : State) : State := { s with history := h ++ s.history }

/-- The same outcome after the events `h`. -/
def afterResult (h : List Event) : Result → Result
  | .next t => .next (t.after h)
  | .fault r => .fault r
  | .refused r => .refused r

/-- A state is its history before the same state with an empty one. -/
theorem eq_after_empty (s : State) (h : List Event) :
    { s with history := h } = State.after h { s with history := [] } := by
  simp [State.after]

section

variable (h : List Event) (s : State)

@[simp] theorem afterResult_next : afterResult h (.next s) = .next (s.after h) := rfl
@[simp] theorem afterResult_refused (r : Refusal) : afterResult h (.refused r) = .refused r := rfl

/-! ### What the micro-steps look at stays -/

@[simp] theorem after_config : (s.after h).config = s.config := rfl
@[simp] theorem after_tickCounter : (s.after h).tickCounter = s.tickCounter := rfl
@[simp] theorem after_phase : (s.after h).phase = s.phase := rfl
@[simp] theorem after_mseq : (s.after h).mseq = s.mseq := rfl
@[simp] theorem after_iseq : (s.after h).iseq = s.iseq := rfl
@[simp] theorem after_port : (s.after h).port = s.port := rfl
@[simp] theorem after_armPos : (s.after h).armPos = s.armPos := rfl

/-! ### The operations commute with it -/

theorem after_accept (cw : Nat) : (s.after h).accept cw = (s.accept cw).after h := by
  simp [State.accept, State.after]

theorem after_respond (op : Nat) (d : Option Tick) : (s.after h).respond op d = (s.respond op d).after h := by
  simp [State.respond, State.after]

theorem after_takeReset (f : ResetFill) : (s.after h).takeReset f = (s.takeReset f).after h := by
  simp [State.takeReset, State.after]

theorem after_interruptEntry : (s.after h).interruptEntry = s.interruptEntry.after h := by
  simp [State.interruptEntry, State.after]

theorem after_interruptReturn : (s.after h).interruptReturn = s.interruptReturn.after h := by
  simp [State.interruptReturn, State.after]

theorem after_requestOsc : (s.after h).requestOsc = s.requestOsc.after h := rfl
theorem after_delayStart (ms : Tick) : delayStart ms (s.after h) = (delayStart ms s).after h := rfl
theorem after_tickIncrement : tickIncrement (s.after h) = (tickIncrement s).after h := rfl
theorem after_tickClear : tickClear (s.after h) = (tickClear s).after h := rfl

theorem after_initEnable : initEnable (s.after h) = (initEnable s).after h := by
  simp [initEnable, State.respond, State.after]

theorem after_present (o : Option Nat) : (s.after h).present o = (s.present o).after h := by
  rw [present_eq, present_eq s, present_port, present_port]; rfl

theorem after_counterStep : (s.after h).counterStep = s.counterStep.after h := by
  by_cases hm : Matches s.armed (counterSucc s.rawCounter) s.cmp
  · rw [counterStep_of_match s hm, counterStep_of_match (s.after h) hm]; simp [State.after]
  · rw [counterStep_of_no_match s hm, counterStep_of_no_match (s.after h) hm]; rfl

theorem after_pollOsc : (s.after h).pollOsc = s.pollOsc.after h := by
  cases hp : s.pins.oscOk <;> simp [State.pollOsc, State.after, hp]

theorem after_tickCheck : tickCheck (s.after h) = (tickCheck s).after h := by
  by_cases he : s.pins.etPending = true ∧ Expired s.config s.pins.etNext s.tickCounter <;>
    simp [tickCheck, State.after, State.emit, he]

theorem after_delayPoll : delayPoll (s.after h) = (delayPoll s).after h := by
  by_cases hd : s.DelayDone
  · rw [delayPoll, delayPoll, if_pos hd, if_pos (show (s.after h).DelayDone from hd), after_respond]
  · rw [delayPoll, delayPoll, if_neg hd, if_neg (show ¬(s.after h).DelayDone from hd)]

theorem after_gotoArm (a : ArmPos) : (s.after h).gotoArm a = (s.gotoArm a).after h := by
  by_cases hi : s.iseq = .idle <;> simp [State.gotoArm, State.after, hi]

theorem after_leaveArm : (s.after h).leaveArm = s.leaveArm.after h := by
  by_cases hi : s.iseq = .idle <;> simp [State.leaveArm, State.after, hi]

theorem after_armMicroStep (a : ArmPos) : (s.after h).armMicroStep a = afterResult h (s.armMicroStep a) := by
  cases a with
  | a0 => rw [armMicroStep_a0, armMicroStep_a0, afterResult_next, ← after_gotoArm]; rfl
  | a1 => rw [armMicroStep_a1, armMicroStep_a1, afterResult_next, ← after_gotoArm]; rfl
  | a2 => rw [armMicroStep_a2, armMicroStep_a2, afterResult_next, ← after_gotoArm]; rfl
  | a3 => rw [armMicroStep_a3, armMicroStep_a3, afterResult_next, ← after_gotoArm]; rfl
  | a4 => rw [armMicroStep_a4, armMicroStep_a4, afterResult_next, after_gotoArm, apply_ite (State.after h)]; rfl
  | a5 => rw [armMicroStep_a5, armMicroStep_a5, afterResult_next, ← after_gotoArm]; rfl
  | a6 => rw [armMicroStep_a6, armMicroStep_a6, afterResult_next, ← after_gotoArm]; rfl
  | a7 =>
    rw [armMicroStep_a7, armMicroStep_a7, afterResult_next, ← after_leaveArm]
    simp [State.after]

/-! ### The meanings and the turns commute with it -/

theorem after_execClockInit : execClockInit (s.after h) = afterResult h (execClockInit s) := by
  by_cases hi : s.iseq = .idle
  · cases hm : s.mseq with
    | idle => cases hp : s.phase <;> simp [execClockInit, hi, hm, hp, after_requestOsc]
    | osc => simp [execClockInit, hi, hm, after_pollOsc]
    | arm a => simp [execClockInit, hi, hm, after_armMicroStep]
    | en => simp [execClockInit, hi, hm, after_initEnable]
    | poll => simp [execClockInit, hi, hm]
  · simp [execClockInit, hi]

theorem after_execClockTime : execClockTime (s.after h) = afterResult h (execClockTime s) := by
  by_cases hc : s.mseq = .idle ∧ s.iseq = .idle
  · cases hp : s.phase <;> simp [execClockTime, State.CanAccept, hc, hp, after_respond]
  · simp [execClockTime, State.CanAccept, hc]

theorem after_execClockSeconds : execClockSeconds (s.after h) = afterResult h (execClockSeconds s) := by
  by_cases hc : s.mseq = .idle ∧ s.iseq = .idle
  · cases hp : s.phase <;> simp [execClockSeconds, State.CanAccept, hc, hp, after_respond]
  · simp [execClockSeconds, State.CanAccept, hc]

theorem after_execClockDelay (ms : Tick) : execClockDelay ms (s.after h) = afterResult h (execClockDelay ms s) := by
  by_cases hi : s.iseq = .idle
  · cases hm : s.mseq with
    | idle => cases hp : s.phase <;> simp [execClockDelay, hi, hm, hp, after_delayStart]
    | poll => simp [execClockDelay, hi, hm, after_delayPoll]
    | osc => simp [execClockDelay, hi, hm]
    | arm a => simp [execClockDelay, hi, hm]
    | en => simp [execClockDelay, hi, hm]
  · simp [execClockDelay, hi]

theorem after_execInitClockSource : execInitClockSource (s.after h) = afterResult h (execInitClockSource s) := by
  by_cases hi : s.iseq = .idle
  · cases hm : s.mseq with
    | idle => cases hp : s.phase <;> simp [execInitClockSource, hi, hm, hp, after_requestOsc]
    | osc => simp [execInitClockSource, hi, hm, after_pollOsc]
    | arm a => simp [execInitClockSource, hi, hm]
    | en => simp [execInitClockSource, hi, hm]
    | poll => simp [execInitClockSource, hi, hm]
  · simp [execInitClockSource, hi]

theorem after_execReadRawCounter : execReadRawCounter (s.after h) = afterResult h (execReadRawCounter s) := by
  cases ha : s.armPos with
  | none => simp [execReadRawCounter, ha]
  | some a => cases a <;> simp only [execReadRawCounter, after_armPos, ha, after_armMicroStep, afterResult_refused]

theorem after_execArmNextCompare : execArmNextCompare (s.after h) = afterResult h (execArmNextCompare s) := by
  cases ha : s.armPos with
  | none => simp [execArmNextCompare, ha]
  | some a => simp only [execArmNextCompare, after_armPos, ha, after_armMicroStep]

theorem after_execTickIsr : execTickIsr (s.after h) = afterResult h (execTickIsr s) := by
  cases hi : s.iseq with
  | idle =>
    by_cases he : s.EntryEnabled
    · simp only [execTickIsr, after_iseq, hi, if_pos he, if_pos (show (s.after h).EntryEnabled from he),
        after_interruptEntry, afterResult_next]
    · simp only [execTickIsr, after_iseq, hi, if_neg he, if_neg (show ¬(s.after h).EntryEnabled from he),
        afterResult_refused]
  | arm a => simp only [execTickIsr, after_iseq, hi, after_armMicroStep]
  | inc => simp only [execTickIsr, after_iseq, hi, after_tickIncrement, afterResult_next]
  | chk => simp only [execTickIsr, after_iseq, hi, after_tickCheck, afterResult_next]
  | clr => simp only [execTickIsr, after_iseq, hi, after_tickClear, afterResult_next]
  | ret => simp only [execTickIsr, after_iseq, hi, after_interruptReturn, afterResult_next]

theorem after_exec (i : Instr) : exec i (s.after h) = afterResult h (exec i s) := by
  cases i with
  | clockInit => exact after_execClockInit h s
  | clockTime => exact after_execClockTime h s
  | clockSeconds => exact after_execClockSeconds h s
  | clockDelay ms => exact after_execClockDelay h s ms
  | initClockSource => exact after_execInitClockSource h s
  | readRawCounter => exact after_execReadRawCounter h s
  | armNextCompare => exact after_execArmNextCompare h s
  | tickIsr => exact after_execTickIsr h s

theorem after_acceptCommand (cw : Nat) : acceptCommand (s.after h) cw = afterResult h (acceptCommand s cw) := by
  cases hd : decodeCommand s.config cw with
  | error e => simp [acceptCommand, hd]
  | ok i => simp [acceptCommand, hd, after_accept, after_exec]

theorem after_mainlineStep : mainlineStep (s.after h) = afterResult h (mainlineStep s) := by
  by_cases hi : s.iseq = .idle
  · cases hm : s.mseq.operation with
    | some i => simp [mainlineStep, hi, hm, after_exec]
    | none => cases hp : s.port <;> simp [mainlineStep, hi, hm, hp, after_acceptCommand]
  · simp [mainlineStep, hi]

theorem after_isrStep : isrStep (s.after h) = afterResult h (isrStep s) := by
  by_cases hc : s.InIsr ∨ s.EntryEnabled
  · rw [isrStep, isrStep, if_pos hc, if_pos (show (s.after h).InIsr ∨ (s.after h).EntryEnabled from hc), after_iseq,
      after_exec]
  · rw [isrStep, isrStep, if_neg hc, if_neg (show ¬((s.after h).InIsr ∨ (s.after h).EntryEnabled) from hc),
      afterResult_next]

theorem after_runTurn (t : Turn) : runTurn t (s.after h) = afterResult h (runTurn t s) := by
  cases t with
  | counter => exact congrArg _ (after_counterStep h s)
  | mainline o p =>
    have hin : ((s.after h).latchPins p).present o = ((s.latchPins p).present o).after h :=
      after_present h (s.latchPins p) o
    rw [runTurn, hin, after_mainlineStep]; rfl
  | isr p => exact after_isrStep h (s.latchPins p)
  | reset f => exact congrArg _ (after_takeReset h s f)

theorem after_takeTurn : (s.after h).takeTurn = (s.takeTurn.1, s.takeTurn.2.after h) := by
  cases ht : s.turns <;> simp [State.takeTurn, State.after, ht]

theorem after_step : step (s.after h) = afterResult h (step s) := by
  by_cases hl : s.config.Legal
  · rw [step, step, if_pos hl, if_pos (show (s.after h).config.Legal from hl), after_takeTurn, after_runTurn]
  · rw [step, step, if_neg hl, if_neg (show ¬(s.after h).config.Legal from hl), afterResult_refused]

end

/-- A step on the history `h` is the step on the empty one, after `h`. -/
theorem step_with_history (s : State) (h : List Event) :
    step { s with history := h } = afterResult h (step { s with history := [] }) := by
  rw [eq_after_empty, after_step]

/-- Settles O51: both steps are the step on the empty history, each after its own events. -/
theorem historyIsWrittenOnly : Obligations.HistoryIsWrittenOnly := by
  intro s h
  have hs : step s = _ := step_with_history s s.history
  have hh := step_with_history s h
  cases hempty : step { s with history := [] } with
  | next t => simp only [hs, hh, hempty, afterResult_next]; exact ⟨t.history, rfl, rfl⟩
  | fault r => exact nomatch r
  | refused r => simp only [hs, hh, hempty, afterResult_refused]

end Sys2Proof.Machine
end

section
/-! ## The register space beside the timer (R51, R52, R58, R65)

Every address is read, written or refused: `Laws/Ops.lean` has the accesses the sequencers make, and the rest is here. -/

namespace Sys2Proof.Machine

/-- The byte of `TSTAT` is `LOAD_READY` at bit 0, under seven bits read as 0 (R51). -/
theorem tstatByte_eq (ready : Bool) : (if ready then 1 else 0 : Byte) = BitVec.ofNat 8 ready.toNat := by
  cases ready <;> rfl

/-- No operation reads the compare bytes or the unassigned address (R58). -/
theorem memRead_refused {a : BitVec 3} (h : a = 3 ∨ a = 4 ∨ a = 5 ∨ a = 7) (s : State) :
    s.memRead a = .error (.timerSpaceRead a.toNat) := by
  rcases h with rfl | rfl | rfl | rfl <;> rfl

/-- No operation writes the counter bytes, the status or the unassigned address (R58). -/
theorem memWrite_refused {a : BitVec 3} (h : a = 0 ∨ a = 1 ∨ a = 2 ∨ a = 6 ∨ a = 7) (s : State) (b : Byte) :
    s.memWrite a b = .error (.timerSpaceWrite a.toNat) := by
  rcases h with rfl | rfl | rfl | rfl | rfl <;> rfl

/-- Settles O33: each address the sequencers use has its law, and the others are refused. -/
theorem timerSideAccesses : Obligations.TimerSideAccesses := by
  intro s b
  have htstat : s.memRead 6 = .ok (BitVec.ofNat 8 s.pins.loadReady.toNat, s) := by
    rw [memRead_tstat, tstatByte_eq]
  exact ⟨memRead_cnt0 s, memRead_cnt1 s, memRead_cnt2 s, htstat, memWrite_cmp2 s b, memWrite_cmp1 s b,
    memWrite_cmp0 s b, fun _ h => memRead_refused h s, fun _ h => memWrite_refused h s b⟩

/-- Settles O34: a value is its bytes put together, and those count as R52 says. -/
theorem bytesOfA24BitValue : Obligations.BytesOfA24BitValue := by
  intro v
  refine ⟨?_, ofBytes_bytes v⟩
  calc v.toNat = (ofBytes (highByte v) (midByte v) (lowByte v)).toNat := by rw [ofBytes_bytes]
    _ = (lowByte v).toNat + 256 * (midByte v).toNat + 65536 * (highByte v).toNat := toNat_ofBytes _ _ _

end Sys2Proof.Machine
end

section
/-! ## The command word, its operation and the port's decoder (spec/30_encoding.md)

A word is two fields (R70). The operation table inverts `Instr.code` on them (R71, R72), and the port's decoder is the
table with the internal rows rejected (R74, R80). -/

namespace Sys2Proof

/-! ### The two fields of a word (R70) -/

theorem cmdOp_commandWord (c : Config) (op arg : Nat) : c.cmdOp (c.commandWord op arg) = op % 16 := by
  have harg : arg % 2 ^ c.tickW < 2 ^ c.tickW := Nat.mod_lt _ (Nat.two_pow_pos _)
  rw [Config.cmdOp, Config.commandWord, Nat.mul_comm, Nat.mul_add_div (Nat.two_pow_pos _), Nat.div_eq_of_lt harg,
    Nat.add_zero, Nat.mod_mod]

theorem cmdArg_commandWord (c : Config) (op arg : Nat) : c.cmdArg (c.commandWord op arg) = arg % 2 ^ c.tickW := by
  rw [Config.cmdArg, Config.commandWord, Nat.mul_add_mod', Nat.mod_mod]

theorem commandWord_of_lt {c : Config} {op arg : Nat} (hop : op < 16) (harg : arg < 2 ^ c.tickW) :
    c.commandWord op arg = op * 2 ^ c.tickW + arg := by
  rw [Config.commandWord, Nat.mod_eq_of_lt hop, Nat.mod_eq_of_lt harg]

/-- In a word of `4 + TICK_W` bits nothing stands above CMD_OP. -/
theorem cmdOp_of_lt {c : Config} {cw : Nat} (h : cw < 2 ^ (c.tickW + 4)) : c.cmdOp cw = cw / 2 ^ c.tickW := by
  have hop : cw / 2 ^ c.tickW < 16 := Nat.div_lt_of_lt_mul (by rwa [Nat.pow_add] at h)
  exact Nat.mod_eq_of_lt hop

/-! ### The operation table (R71, R72) -/

theorem Instr.code_lt (i : Instr) : i.code < 8 := by
  cases i <;> simp [Instr.code]

/-- Format C is the codes below 0x4 (R71). -/
theorem Instr.isCommand_iff_code (i : Instr) : i.isCommand = true ↔ i.code < 4 := by
  cases i <;> simp [Instr.isCommand, Instr.code]

theorem Instr.operand_lt {c : Config} {i : Instr} (h : i.wellFormed c = true) : i.operand < 2 ^ c.tickW := by
  cases i with
  | clockDelay ms => exact of_decide_eq_true h
  | _ => exact Nat.two_pow_pos _

/-- The word of a well-formed operation, its fields written out (R70). -/
theorem encode_eq {c : Config} {i : Instr} (h : i.wellFormed c = true) :
    encode c i = i.code * 2 ^ c.tickW + i.operand :=
  commandWord_of_lt (i.code_lt.trans (by decide)) (Instr.operand_lt h)

theorem decodeOperation_code_operand (i : Instr) : decodeOperation i.code i.operand = .ok i := by
  cases i <;> rfl

/-- Each code below 0x8 is the code of one row, whatever the operand. -/
theorem decodeOperation_of_lt {code : Nat} (arg : Nat) (h : code < 8) :
    ∃ i : Instr, decodeOperation code arg = .ok i ∧ i.code = code := by
  match code, h with
  | 0, _ => exact ⟨.clockInit, rfl, rfl⟩
  | 1, _ => exact ⟨.clockTime, rfl, rfl⟩
  | 2, _ => exact ⟨.clockSeconds, rfl, rfl⟩
  | 3, _ => exact ⟨.clockDelay arg, rfl, rfl⟩
  | 4, _ => exact ⟨.initClockSource, rfl, rfl⟩
  | 5, _ => exact ⟨.readRawCounter, rfl, rfl⟩
  | 6, _ => exact ⟨.armNextCompare, rfl, rfl⟩
  | 7, _ => exact ⟨.tickIsr, rfl, rfl⟩

/-- No row has a code from 0x8 upwards. -/
theorem decodeOperation_of_ge {code : Nat} (arg : Nat) (h : 8 ≤ code) :
    decodeOperation code arg = .error (.reservedCode code) := by
  unfold decodeOperation
  split
  case h_9 => rfl
  all_goals omega

/-! ### The port's decoder (R74, R80) -/

section
variable {c : Config} {cw : Nat}

/-- A row of the table is taken from the port or rejected as internal. -/
theorem decodeCommand_of_operation {i : Instr} (hcw : cw < 2 ^ (c.tickW + 4))
    (h : decodeOperation (c.cmdOp cw) (c.cmdArg cw) = .ok i) :
    decodeCommand c cw = if i.isCommand then .ok i else .error (.internalCode i.code) := by
  simp only [decodeCommand, if_pos hcw, h]

theorem decodeCommand_of_command {i : Instr} (hcw : cw < 2 ^ (c.tickW + 4))
    (h : decodeOperation (c.cmdOp cw) (c.cmdArg cw) = .ok i) (hi : i.isCommand = true) :
    decodeCommand c cw = .ok i :=
  (decodeCommand_of_operation hcw h).trans (if_pos hi)

theorem decodeCommand_of_internal (hcw : cw < 2 ^ (c.tickW + 4)) (h4 : 4 ≤ c.cmdOp cw) (h8 : c.cmdOp cw < 8) :
    decodeCommand c cw = .error (.internalCode (c.cmdOp cw)) := by
  obtain ⟨i, hi, hcode⟩ := decodeOperation_of_lt (c.cmdArg cw) h8
  have hport : ¬i.isCommand = true := by rw [i.isCommand_iff_code]; omega
  rw [decodeCommand_of_operation hcw hi, if_neg hport, hcode]

theorem decodeCommand_of_reserved (hcw : cw < 2 ^ (c.tickW + 4)) (h8 : 8 ≤ c.cmdOp cw) :
    decodeCommand c cw = .error (.reservedCode (c.cmdOp cw)) := by
  simp only [decodeCommand, if_pos hcw, decodeOperation_of_ge _ h8]

end

/-! ### The statements about words -/

/-- Settles O1: the two fields of the word are the code and the operand, and the table has the operation at them. -/
theorem decodeInvertsEncode : Obligations.DecodeInvertsEncode := by
  intro c i hwf
  have hop : c.cmdOp (encode c i) = i.code :=
    (cmdOp_commandWord c _ _).trans (Nat.mod_eq_of_lt (i.code_lt.trans (by decide)))
  have harg : c.cmdArg (encode c i) = i.operand :=
    (cmdArg_commandWord c _ _).trans (Nat.mod_eq_of_lt (Instr.operand_lt hwf))
  have htable : decodeOperation (c.cmdOp (encode c i)) (c.cmdArg (encode c i)) = .ok i := by
    rw [hop, harg, decodeOperation_code_operand]
  exact ⟨htable, decodeCommand_of_operation (Laws.commandWord_lt c _ _) htable⟩

/-- Settles O2: the fields of the word are `op` and `arg`, and the code picks a command, an internal row or none. -/
theorem portDecodesEveryWord : Obligations.PortDecodesEveryWord := by
  intro c op arg hop harg
  rw [← commandWord_of_lt hop harg]
  have hcw := Laws.commandWord_lt c op arg
  have hcode : c.cmdOp (c.commandWord op arg) = op := (cmdOp_commandWord c op arg).trans (Nat.mod_eq_of_lt hop)
  have hoperand : c.cmdArg (c.commandWord op arg) = arg :=
    (cmdArg_commandWord c op arg).trans (Nat.mod_eq_of_lt harg)
  have command {i : Instr} (h : decodeOperation op arg = .ok i) (hi : i.isCommand = true) :
      decodeCommand c (c.commandWord op arg) = .ok i :=
    decodeCommand_of_command hcw (by rw [hcode, hoperand, h]) hi
  split_ifs with h0 h1 h2 h3 h8
  · exact command (by rw [h0]; rfl) rfl
  · exact command (by rw [h1]; rfl) rfl
  · exact command (by rw [h2]; rfl) rfl
  · exact command (by rw [h3]; rfl) rfl
  · rw [decodeCommand_of_internal hcw (by omega) (by omega), hcode]
  · rw [decodeCommand_of_reserved hcw (by omega), hcode]

/-- A word laid out as the code and the operand of a well-formed command is read as that command and is its word. -/
theorem decodeCommand_of_layout {c : Config} {i : Instr} {cw : Nat} (hwf : i.wellFormed c = true)
    (hi : i.isCommand = true) (h : i.code * 2 ^ c.tickW + i.operand = cw) :
    decodeCommand c cw = .ok i ∧ encode c i = cw := by
  obtain rfl : encode c i = cw := (encode_eq hwf).trans h
  obtain ⟨-, hport⟩ := decodeInvertsEncode c i hwf
  exact ⟨hport.trans (if_pos hi), rfl⟩

/-- Settles O3: each of the ten words is laid out as the code and the operand of its operation. -/
theorem canonicalWordsDecode : Obligations.CanonicalWordsDecode := by
  intro tps hz
  simp only [List.forall_mem_cons, List.not_mem_nil, false_imp_iff, implies_true, and_true]
  refine ⟨⟨?_, ?_, ?_, ?_, ?_, ?_⟩, ?_, ?_, ?_, ?_⟩
  all_goals
    refine decodeCommand_of_layout ?_ rfl ?_
    · simp [Instr.wellFormed]
    · norm_num [Instr.code, Instr.operand]

end Sys2Proof
end

section
/-! ## Acceptance: what MAINLINE's turn does with the word on the port (R74, R75) -/

namespace Sys2Proof.Machine

theorem acceptCommand_of_decoded {s : State} {cw : Nat} {i : Instr} (h : decodeCommand s.config cw = .ok i) :
    acceptCommand s cw = exec i (s.accept cw) := by
  simp only [acceptCommand, h]

theorem acceptCommand_of_rejected {s : State} {cw : Nat} {e : DecodeError} (h : decodeCommand s.config cw = .error e) :
    acceptCommand s cw = .refused (refusalOfDecode e) := by
  simp only [acceptCommand, h]

theorem mainlineStep_of_presented {s : State} {cw : Nat} (hacc : s.CanAccept) (hp : s.port = some cw) :
    mainlineStep s = acceptCommand s cw := by
  obtain ⟨hm, hi⟩ := hacc
  simp [mainlineStep, hi, hm, MSeq.operation, hp]

/-- On MAINLINE's turn, with both sequencers idle and a word on the port, the step is the acceptance of the word in the
state with the turn's inputs, whose configuration is that of `s`. -/
theorem step_of_presented {s : State} {offer : Option Nat} {pins : Pins} {cw : Nat} (hl : s.config.Legal)
    (hturn : s.nextTurn = .mainline offer pins) (hacc : s.CanAccept) (hcw : s.offered offer = some cw) :
    step s = acceptCommand (s.takeTurn.2.latchTurn (.mainline offer pins)) cw ∧
      (s.takeTurn.2.latchTurn (.mainline offer pins)).config = s.config := by
  have hstep : step s = mainlineStep (s.takeTurn.2.latchTurn (.mainline offer pins)) := step_of_turn hl hturn
  obtain ⟨p, turns, n, h₀⟩ := latchTurn_takeTurn s (.mainline offer pins)
  rw [hstep, h₀]
  exact ⟨mainlineStep_of_presented hacc hcw, rfl⟩

/-- A presented word that the port's decoder rejects is refused by the name of its rejection (R74). -/
theorem step_of_rejected {s : State} {offer : Option Nat} {pins : Pins} {cw : Nat} {e : DecodeError}
    (hl : s.config.Legal) (hturn : s.nextTurn = .mainline offer pins) (hacc : s.CanAccept)
    (hcw : s.offered offer = some cw) (h : decodeCommand s.config cw = .error e) :
    step s = .refused (refusalOfDecode e) := by
  obtain ⟨hstep, hconfig⟩ := step_of_presented hl hturn hacc hcw
  rw [hstep, acceptCommand_of_rejected (hconfig.symm ▸ h)]

/-- The accepted state, its event read in the configuration it is known to have. -/
theorem accept_eq {s : State} {c : Config} (h : s.config = c) (cw : Nat) : s.accept cw =
    { s with port := none, history := s.history ++ [.cmd (cw / 2 ^ c.tickW % 16) (cw % 2 ^ c.tickW)] } := by
  subst h; rfl

/-- Settles O4: the turn accepts the word, and acceptance runs the operation the word decodes to. -/
theorem stepRunsTheAcceptedCommand : Obligations.StepRunsTheAcceptedCommand := by
  intro s offer pins cw i hl hturn hacc hcw hd s₀
  obtain ⟨hstep, hconfig⟩ := step_of_presented hl hturn hacc hcw
  rw [hstep, acceptCommand_of_decoded (hconfig.symm ▸ hd), accept_eq hconfig]
  rfl

/-- Settles O8: the port's decoder rejects these codes, each in its range. -/
theorem portRefusesOtherCodes : Obligations.PortRefusesOtherCodes := by
  intro s offer pins cw hl hturn hacc hcw hlt
  rw [← cmdOp_of_lt hlt]
  exact ⟨fun h4 h8 => step_of_rejected hl hturn hacc hcw (decodeCommand_of_internal hlt h4 h8),
    fun h8 => step_of_rejected hl hturn hacc hcw (decodeCommand_of_reserved hlt h8)⟩

end Sys2Proof.Machine
end

section
/-! ## A command that finds the port closed (R44, R75) -/

namespace Sys2Proof.Machine

section
variable {s : State}

theorem execClockTime_of_closed (h : ¬s.CanAccept) : execClockTime s = .next s := if_neg h

theorem execClockSeconds_of_closed (h : ¬s.CanAccept) : execClockSeconds s = .next s := if_neg h

theorem execClockInit_of_inIsr (h : s.InIsr) : execClockInit s = .next s := if_pos h

theorem execClockDelay_of_inIsr (ms : Tick) (h : s.InIsr) : execClockDelay ms s = .next s := if_pos h

/-- While `CLOCK_DELAY` polls, `CLOCK_INIT` waits. -/
theorem execClockInit_of_poll (hi : s.iseq = .idle) (hm : s.mseq = .poll) : execClockInit s = .next s := by
  simp [execClockInit, hi, hm]

/-- While `CLOCK_INIT` runs, `CLOCK_DELAY` waits. -/
theorem execClockDelay_of_clockInit (ms : Tick) (hi : s.iseq = .idle)
    (hm : s.mseq = .osc ∨ s.mseq = .en ∨ ∃ a, s.mseq = .arm a) : execClockDelay ms s = .next s := by
  rcases hm with hm | hm | ⟨a, hm⟩ <;> simp [execClockDelay, hi, hm]

end

/-- Settles O11: each command waits at each position where it cannot be accepted. -/
theorem commandsWaitForTheirTurn : Obligations.CommandsWaitForTheirTurn := fun _ ms =>
  ⟨fun h => ⟨execClockTime_of_closed h, execClockSeconds_of_closed h⟩,
    fun h => ⟨execClockInit_of_inIsr h, execClockDelay_of_inIsr ms h⟩,
    fun hi hm => execClockInit_of_poll hi hm, fun hi hm => execClockDelay_of_clockInit ms hi hm⟩

end Sys2Proof.Machine
end

section
/-! ## The reload and its result (R91 to R96)

What the registers of the reload hold at each of its positions, once the counter was at `v` at A0, is `State.ReloadAt`:
each micro-step brings it to the next position, and no COUNTER step touches it. -/

namespace Sys2Proof.Machine

/-! ### The sequencer that runs (R92, R123) -/

@[simp] theorem gotoArm_armPos (s : State) (a : ArmPos) : (s.gotoArm a).armPos = some a := by
  by_cases hi : s.iseq = .idle
  · rw [gotoArm_of_mainline s hi]; exact armPos_of_mainline hi rfl
  · rw [gotoArm_of_inIsr s hi]; exact armPos_of_isr rfl

@[simp] theorem leaveArm_armPos (s : State) : s.leaveArm.armPos = none := by
  by_cases hi : s.iseq = .idle
  · rw [leaveArm_of_mainline s hi]; simp [State.armPos, hi, MSeq.armPos]
  · rw [leaveArm_of_inIsr s hi]; rfl

theorem armPos_of_rest {s : State} (hi : s.iseq = .idle) (hm : ∀ a, s.mseq ≠ .arm a) : s.armPos = none := by
  cases h : s.mseq with
  | arm a => exact absurd h (hm a)
  | _ => simp [State.armPos, hi, h, MSeq.armPos]

theorem armPos_of_afterReload {s : State} (hi : s.iseq ≠ .idle) (ha : ∀ a, s.iseq ≠ .arm a) : s.armPos = none := by
  cases h : s.iseq with
  | idle => exact absurd h hi
  | arm a => exact absurd h (ha a)
  | _ => simp [State.armPos, h, ISeq.armPos]

/-- At a position of the reload some sequencer stands there: the interrupt sequencer in a pass, else the mainline's. -/
theorem armPos_cases {s : State} {a : ArmPos} (h : s.armPos = some a) :
    (s.iseq = .idle ∧ s.mseq = .arm a) ∨ s.iseq = .arm a := by
  cases hi : s.iseq with
  | idle => cases hm : s.mseq <;> simp [State.armPos, hi, hm, MSeq.armPos] at h; simp [h]
  | _ => simp [State.armPos, hi, ISeq.armPos] at h <;> simp [h]

theorem exec_armNextCompare_of_armPos {s : State} {a : ArmPos} (h : s.armPos = some a) :
    exec .armNextCompare s = s.armMicroStep a := by
  simp [exec, execArmNextCompare, h]

@[simp] theorem counterStep_armPos (s : State) : s.counterStep.armPos = s.armPos := by
  simp [State.armPos]

/-! ### The registers at each position -/

/-- The position after one of `ARM_NEXT_COMPARE`; A7 is the last (R92). -/
def ArmPos.next : ArmPos → Option ArmPos
  | .a0 => some .a1
  | .a1 => some .a2
  | .a2 => some .a3
  | .a3 => some .a4
  | .a4 => some .a5
  | .a5 => some .a6
  | .a6 => some .a7
  | .a7 => none

/-- What the registers of the reload hold at a position, for a counter that was at `v` at A0 (R91, R92). -/
def State.ReloadAt (s : State) (v : Word24) : ArmPos → Prop
  | .a0 => s.rawCounter = v
  | .a1 => lowByte s.snap = lowByte v ∧ s.cntLatch = upperHalf v
  | .a2 => lowByte s.snap = lowByte v ∧ midByte s.snap = midByte v ∧ s.cntLatch = upperHalf v
  | .a3 => s.snap = v
  | .a4 => s.snap = v ∧ s.newcmp = v + intervalWord s.config
  | .a5 => s.snap = v ∧ s.newcmp = v + intervalWord s.config
  | .a6 => s.snap = v ∧ s.newcmp = v + intervalWord s.config ∧ halfHigh s.cmpHold = highByte s.newcmp
  | .a7 => s.snap = v ∧ s.newcmp = v + intervalWord s.config ∧ s.cmpHold = upperHalf s.newcmp

/-- Each micro-step but A7 brings the registers to what they hold at the next position; at A4 with `LOAD_READY`. -/
theorem armMicroStep_advances {s : State} {v : Word24} {a b : ArmPos} (hnext : a.next = some b)
    (hready : a = .a4 → s.pins.loadReady = true) (h : s.ReloadAt v a) :
    ∃ t, s.armMicroStep a = .next t ∧ t.armPos = some b ∧ t.ReloadAt v b := by
  cases a <;> cases hnext
  case a0 =>
    subst h
    exact ⟨_, armMicroStep_a0 s, by simp, by simp [State.ReloadAt, setLowByte]⟩
  case a1 =>
    obtain ⟨hlow, hlatch⟩ := h
    exact ⟨_, armMicroStep_a1 s, by simp, by simp [State.ReloadAt, setMidByte, hlow, hlatch]⟩
  case a2 =>
    obtain ⟨hlow, hmid, hlatch⟩ := h
    exact ⟨_, armMicroStep_a2 s, by simp, by simp [State.ReloadAt, setHighByte, hlow, hmid, hlatch]⟩
  case a3 => exact ⟨_, armMicroStep_a3 s, by simp, by simpa [State.ReloadAt, reloadValue] using h⟩
  case a4 => exact ⟨_, armMicroStep_a4 s, by simp [hready], by simpa [State.ReloadAt, hready] using h⟩
  case a5 => exact ⟨_, armMicroStep_a5 s, by simp, by simpa [State.ReloadAt] using h⟩
  case a6 =>
    obtain ⟨hsnap, hnew, hhigh⟩ := h
    have hhold : setHalfLow s.cmpHold (midByte s.newcmp) = upperHalf s.newcmp := half_ext (by simp [hhigh]) (by simp)
    exact ⟨_, armMicroStep_a6 s, by simp, ⟨by simpa using hsnap, by simpa using hnew, by simpa using hhold⟩⟩

/-- A7 adopts the value computed at A3, and the reload is over. -/
theorem armMicroStep_adopts {s t : State} {v : Word24} (h : s.ReloadAt v .a7) (ht : s.armMicroStep .a7 = .next t) :
    t.armPos = none ∧ t.snap = v ∧ t.cmp = v + intervalWord t.config ∧ t.newcmp = t.cmp ∧ t.armed = true := by
  obtain ⟨hsnap, hnew, hhold⟩ := h
  cases ht
  simp [hsnap, hnew, hhold]

/-! ### The invariant between reloads -/

/-- The invariant of the reload is what the registers hold at its position. -/
theorem reloadKept_of_reloadAt {s : State} {v : Word24} {a : ArmPos} (hpos : s.armPos = some a) (h : s.ReloadAt v a) :
    s.ReloadKept := by
  cases a <;> simp_all [State.ReloadKept, State.ReloadAt]

/-- From A3 on the invariant says what the registers hold, with `SNAP` as the counter's value at A0. -/
theorem reloadAt_of_reloadKept {s : State} {a : ArmPos} (hpos : s.armPos = some a) (ha : a.operation = .armNextCompare)
    (h : s.ReloadKept) : s.ReloadAt s.snap a := by
  cases a <;> simp_all [State.ReloadKept, State.ReloadAt, ArmPos.operation]

/-- While no reload is in progress the invariant speaks of a machine that has completed one. -/
theorem reloadKept_of_none {s : State} (hpos : s.armPos = none)
    (h : s.phase = .running ∨ s.mseq = .en → s.cmp = s.snap + intervalWord s.config) : s.ReloadKept := by
  simpa only [State.ReloadKept, hpos] using h

theorem cmp_of_reloadKept {s : State} (hs : s.ReloadKept) (hpos : s.armPos = none)
    (hdone : s.phase = .running ∨ s.mseq = .en) : s.cmp = s.snap + intervalWord s.config := by
  simp only [State.ReloadKept, hpos] at hs
  exact hs hdone

/-- The invariant speaks of the sequencers, the phase, the reload's registers and the compare registers only. -/
theorem reloadKept_congr {s t : State} (hs : s.ReloadKept) (hpos : t.armPos = s.armPos) (hconfig : t.config = s.config)
    (hsnap : t.snap = s.snap) (hnew : t.newcmp = s.newcmp) (hhold : t.cmpHold = s.cmpHold) (hcmp : t.cmp = s.cmp)
    (hph : t.phase = s.phase) (hm : t.mseq = s.mseq) : t.ReloadKept := by
  simpa only [State.ReloadKept, hpos, hconfig, hsnap, hnew, hhold, hcmp, hph, hm] using hs

/-- After a completed reload, a micro-step outside the reload leaves `CMP` and what it was computed from. -/
theorem reloadKept_outside {s t : State} (hs : s.ReloadKept) (hpos : s.armPos = none)
    (hdone : s.phase = .running ∨ s.mseq = .en) (hpos' : t.armPos = none) (hcmp : t.cmp = s.cmp)
    (hsnap : t.snap = s.snap) (hconfig : t.config = s.config) : t.ReloadKept := by
  refine reloadKept_of_none hpos' fun _ => ?_
  rw [hcmp, hsnap, hconfig]
  exact cmp_of_reloadKept hs hpos hdone

/-- A pass that has left the reload has a completed one behind it. -/
theorem reloadKept_afterReload {s t : State} (hc : s.Coherent) (hs : s.ReloadKept) (hi : s.iseq ≠ .idle)
    (ha : ∀ a, s.iseq ≠ .arm a) (hpos' : t.armPos = none) (hcmp : t.cmp = s.cmp) (hsnap : t.snap = s.snap)
    (hconfig : t.config = s.config) : t.ReloadKept :=
  reloadKept_outside hs (armPos_of_afterReload hi ha) (.inl (hc.running hi)) hpos' hcmp hsnap hconfig

theorem armMicroStep_keeps_reload {s t : State} {a : ArmPos} (hs : s.ReloadKept) (hpos : s.armPos = some a)
    (h : s.armMicroStep a = .next t) : t.ReloadKept := by
  have advance {b : ArmPos} (hnext : a.next = some b) (ha : a.operation = .armNextCompare)
      (hready : a = .a4 → s.pins.loadReady = true) : t.ReloadKept := by
    obtain ⟨t', ht', hpos', hat⟩ := armMicroStep_advances hnext hready (reloadAt_of_reloadKept hpos ha hs)
    cases h.symm.trans ht'
    exact reloadKept_of_reloadAt hpos' hat
  cases a with
  | a0 => cases h; simp [State.ReloadKept]
  | a1 => cases h; simp [State.ReloadKept]
  | a2 => cases h; simp [State.ReloadKept]
  | a3 => exact advance rfl rfl (by simp)
  | a4 =>
    cases hready : s.pins.loadReady with
    | true => exact advance rfl rfl fun _ => hready
    | false =>
      obtain rfl : s = t := by simpa [hready] using h
      exact hs
  | a5 => exact advance rfl rfl (by simp)
  | a6 => exact advance rfl rfl (by simp)
  | a7 =>
    obtain ⟨hpos', hsnap, hcmp, -⟩ := armMicroStep_adopts (reloadAt_of_reloadKept hpos rfl hs) h
    exact reloadKept_of_none hpos' fun _ => by rw [hcmp, hsnap]

theorem transition_keeps_reload {turn : Turn} {s t : State} (ht : Transition turn s t) (hc : s.Coherent)
    (hs : s.ReloadKept) : t.ReloadKept := by
  have ⟨_, _, hrun, _⟩ := hc
  cases ht with
  | counter => exact reloadKept_congr hs (by simp) (by simp) (by simp) (by simp) (by simp) (by simp) (by simp) (by simp)
  | reset f => exact reloadKept_of_none rfl (by simp)
  | idle => exact hs
  | noEntry => exact hs
  | acceptInit o p _ cw hi hm hp hd hph =>
    exact reloadKept_of_none (armPos_of_rest hi (by simp)) (by simp [hph])
  | acceptTime o p _ cw hi hm hp hd hph =>
    exact reloadKept_outside hs (armPos_of_rest hi (by simp [hm])) (.inl hph) (armPos_of_rest hi (by simp)) rfl rfl rfl
  | acceptSeconds o p _ cw hi hm hp hd hph =>
    exact reloadKept_outside hs (armPos_of_rest hi (by simp [hm])) (.inl hph) (armPos_of_rest hi (by simp)) rfl rfl rfl
  | acceptDelay o p _ cw ms hi hm hp hd hph =>
    exact reloadKept_outside hs (armPos_of_rest hi (by simp [hm])) (.inl hph) (armPos_of_rest hi (by simp)) rfl rfl rfl
  | osc o p _ hi hm =>
    have hph := hc.uninitialized (by simp [hm]) (by simp [hm])
    rcases pollOsc_mseq hm with h | h
    · exact reloadKept_of_none (armPos_of_rest (by simpa using hi) (by simp [h])) (by simp [hph, h])
    · exact reloadKept_of_reloadAt (v := s.pollOsc.rawCounter) (armPos_of_mainline (by simpa using hi) h) rfl
  | mainlineArm o p _ _ a hi hm ha => exact armMicroStep_keeps_reload hs (armPos_of_mainline hi hm) ha
  | enable o p _ hi hm =>
    exact reloadKept_outside hs (armPos_of_rest hi (by simp [hm])) (.inr hm) (armPos_of_rest hi (by simp)) rfl rfl rfl
  | poll o p _ hi hm =>
    have hpos' : (delayPoll s).armPos = none := by
      rcases delayPoll_cases s with ⟨-, h⟩ | ⟨-, h⟩ <;> rw [h]
      · exact armPos_of_rest hi (by simp)
      · exact armPos_of_rest hi (by simp [hm])
    exact reloadKept_outside hs (armPos_of_rest hi (by simp [hm])) (.inl (hc.polling hm)) hpos' (by simp) (by simp)
      (by simp)
  | entry => exact reloadKept_of_reloadAt (v := s.rawCounter) (armPos_of_isr rfl) rfl
  | isrArm p _ _ a hi ha => exact armMicroStep_keeps_reload hs (armPos_of_isr hi) ha
  | inc p _ hi => exact reloadKept_afterReload hc hs (by simp [hi]) (by simp [hi]) rfl rfl rfl rfl
  | chk p _ hi =>
    exact reloadKept_afterReload hc hs (by simp [hi]) (by simp [hi]) (armPos_of_afterReload (by simp) (by simp))
      (by simp) (by simp) (by simp)
  | clr p _ hi => exact reloadKept_afterReload hc hs (by simp [hi]) (by simp [hi]) rfl rfl rfl rfl
  | ret p _ hi =>
    have hm : ∀ a, s.mseq ≠ .arm a := by rcases hrun (hc.running (by simp [hi])) with hm | hm <;> simp [hm]
    exact reloadKept_afterReload hc hs (by simp [hi]) (by simp [hi]) (armPos_of_rest rfl hm) rfl rfl rfl

/-- Settles O57: latching a turn's inputs touches nothing the invariant speaks of, and every micro-step of a coherent
machine keeps it. -/
theorem stepKeepsTheReload : Obligations.StepKeepsTheReload := by
  intro s t hc hs hstep
  obtain ⟨pins, turns, n, htrans⟩ := step_transition hstep
  exact transition_keeps_reload htrans hc hs

end Sys2Proof.Machine
end

section
/-! ## The micro-steps of the timer driver, one by one (spec/40_timer_driver.md) -/

namespace Sys2Proof.Machine

section
variable {s u : State} {a b : ArmPos}

theorem armMicroStep_a4_of_ready (h : s.pins.loadReady = true) : s.armMicroStep .a4 = .next (s.gotoArm .a5) := by
  rw [armMicroStep_a4, if_pos h]

theorem armMicroStep_a4_of_notReady (h : s.pins.loadReady = false) : s.armMicroStep .a4 = .next s := by
  simp [h]

/-- A micro-step of the reload that advances, run by `CLOCK_INIT`. -/
theorem exec_operation_of_mainline (hi : s.iseq = .idle) (hm : s.mseq = .arm a)
    (h : s.armMicroStep a = .next (u.gotoArm b)) (hu : u.iseq = s.iseq) :
    exec a.operation s = .next { u with mseq := .arm b } := by
  rw [exec_arm_operation (armPos_of_mainline hi hm), h, gotoArm_of_mainline u (hu.trans hi)]

/-- A micro-step of the reload that advances, run by a pass. -/
theorem exec_operation_of_isr (hi : s.iseq = .arm a) (h : s.armMicroStep a = .next (u.gotoArm b))
    (hu : u.iseq = s.iseq) : exec a.operation s = .next { u with iseq := .arm b } := by
  rw [exec_arm_operation (armPos_of_isr hi), h, gotoArm_of_inIsr u (by simp [State.InIsr, hu, hi])]

end

/-- Settles O13: S0 and the two outcomes of the poll, each an arm of the meaning. -/
theorem initClockSourceSteps : Obligations.InitClockSourceSteps := by
  intro s hi
  refine ⟨fun hm hp => ?_, fun hm hosc => ?_, fun hm hosc => ?_⟩
  · simp [exec, execInitClockSource, hi, hm, hp, State.requestOsc]
  · simp [exec, execInitClockSource, hi, hm, State.pollOsc, hosc]
  · simp [exec, execInitClockSource, hi, hm, State.pollOsc, hosc]

/-- Settles O14: each read, on either sequencer. -/
theorem readRawCounterSteps : Obligations.ReadRawCounterSteps := by
  intro s s₀ s₁ s₂
  exact ⟨fun hi hm => (exec_operation_of_mainline hi hm (armMicroStep_a0 s) rfl :),
    fun hi hm => (exec_operation_of_mainline hi hm (armMicroStep_a1 s) rfl :),
    fun hi hm => (exec_operation_of_mainline hi hm (armMicroStep_a2 s) rfl :),
    fun hi => (exec_operation_of_isr hi (armMicroStep_a0 s) rfl :),
    fun hi => (exec_operation_of_isr hi (armMicroStep_a1 s) rfl :),
    fun hi => (exec_operation_of_isr hi (armMicroStep_a2 s) rfl :)⟩

/-- Settles O16: each micro-step from A3 on, on the mainline sequencer. -/
theorem armNextCompareStepsInClockInit : Obligations.ArmNextCompareStepsInClockInit := by
  intro s hi
  refine ⟨fun hm => (exec_operation_of_mainline hi hm (armMicroStep_a3 s) rfl :),
    fun hm hready => (exec_operation_of_mainline hi hm (armMicroStep_a4_of_ready hready) rfl :), fun hm hwait => ?_,
    fun hm => (exec_operation_of_mainline hi hm (armMicroStep_a5 s) rfl :),
    fun hm => (exec_operation_of_mainline hi hm (armMicroStep_a6 s) rfl :), fun hm => ?_⟩
  · rw [exec_armNextCompare_of_armPos (armPos_of_mainline hi hm), armMicroStep_a4_of_notReady hwait]
  · rw [exec_armNextCompare_of_armPos (armPos_of_mainline hi hm), armMicroStep_a7]
    exact congrArg _ (leaveArm_of_mainline _ (by exact hi))

/-- Settles O17: each micro-step from A3 on, on the interrupt sequencer. -/
theorem armNextCompareStepsInTickIsr : Obligations.ArmNextCompareStepsInTickIsr := by
  intro s
  refine ⟨fun hi => (exec_operation_of_isr hi (armMicroStep_a3 s) rfl :),
    fun hi hready => (exec_operation_of_isr hi (armMicroStep_a4_of_ready hready) rfl :), fun hi hwait => ?_,
    fun hi => (exec_operation_of_isr hi (armMicroStep_a5 s) rfl :),
    fun hi => (exec_operation_of_isr hi (armMicroStep_a6 s) rfl :), fun hi => ?_⟩
  · rw [exec_armNextCompare_of_armPos (armPos_of_isr hi), armMicroStep_a4_of_notReady hwait]
  · have hisr : s.InIsr := by simp [hi]
    rw [exec_armNextCompare_of_armPos (armPos_of_isr hi), armMicroStep_a7]
    exact congrArg _ (leaveArm_of_inIsr _ (by exact hisr))

/-- A sequencer's move to a position of the reload changes only the position. -/
theorem gotoArm_eq (s : State) (a : ArmPos) :
    s.gotoArm a = { s with mseq := (s.gotoArm a).mseq, iseq := (s.gotoArm a).iseq } := by
  unfold State.gotoArm; split <;> rfl

/-- The sum of R93 on 24 bits. -/
theorem toNat_reloadValue {c : Config} (hl : c.Legal) (snap : Word24) :
    (reloadValue snap (intervalWord c)).toNat = (snap.toNat + c.tickInterval) % 2 ^ 24 := by
  rw [reloadValue, intervalWord, BitVec.toNat_add, BitVec.toNat_ofNat, Nat.mod_eq_of_lt hl.tickInterval_lt]

/-- Settles O18: A3 computes the sum on 24 bits and moves the sequencer. -/
theorem reloadArithmeticIsModular : Obligations.ReloadArithmeticIsModular := by
  intro s hpos hl
  have hsnap := s.snap.isLt
  have hinterval := hl.tickInterval_lt
  refine ⟨by omega, _, (exec_armNextCompare_of_armPos hpos).trans (armMicroStep_a3 s), ?_, ?_, ?_⟩
  · rw [State.gotoArm_newcmp]; exact toNat_reloadValue hl s.snap
  · exact Nat.le_of_lt_succ (BitVec.isLt _)
  · rw [State.gotoArm_newcmp]; exact gotoArm_eq _ _

end Sys2Proof.Machine
end

section
/-! ## COUNTER steps in a row, and the distance to the next match (R95, R142) -/

namespace Sys2Proof.Machine

theorem counterSucc_add_ofNat (raw : Word24) (k : Nat) :
    counterSucc (raw + BitVec.ofNat 24 k) = raw + BitVec.ofNat 24 (k + 1) := by
  rw [counterSucc, BitVec.add_assoc, BitVec.ofNat_add]; rfl

/-- As long as no arrival matches, only the counter moves. -/
theorem iterate_counterStep_of_no_match {s : State} {k : Nat}
    (h : ∀ i < k, ¬Matches s.armed (counterSucc (s.rawCounter + BitVec.ofNat 24 i)) s.cmp) :
    State.counterStep^[k] s = { s with rawCounter := s.rawCounter + BitVec.ofNat 24 k } := by
  induction k with
  | zero => simp
  | succ k ih =>
    have hlast := h k (Nat.lt_succ_self k)
    rw [Function.iterate_succ_apply', ih fun i hi => h i (Nat.lt_succ_of_lt hi), counterStep_of_no_match _ hlast,
      counterSucc_add_ofNat]

/-- The modular difference of R12 on 24-bit values. -/
theorem subMod_toNat (a b : Word24) : subMod 24 a.toNat b.toNat = (a - b).toNat := by
  rw [subMod, BitVec.toNat_sub, Nat.mod_eq_of_lt a.isLt, Nat.mod_eq_of_lt b.isLt, Nat.add_comm]

theorem distanceToMatch_eq_subMod (cmp raw : Word24) :
    distanceToMatch cmp raw = subMod 24 (subMod 24 cmp.toNat raw.toNat) 1 + 1 := by
  rw [distanceToMatch, subMod_toNat]
  exact congrArg (· + 1) (subMod_toNat (cmp - raw) 1).symm

theorem distanceToMatch_le (cmp raw : Word24) : distanceToMatch cmp raw ≤ 2 ^ 24 := (cmp - raw - 1).isLt

/-- The counter arrives at `cmp` at the step whose number is the distance, and at no step before. -/
theorem counterSucc_eq_cmp_iff {cmp raw : Word24} {i : Nat} (hi : i < 2 ^ 24) :
    counterSucc (raw + BitVec.ofNat 24 i) = cmp ↔ i + 1 = distanceToMatch cmp raw := by
  have hcmp := cmp.isLt
  have hraw := raw.isLt
  simp only [counterSucc, distanceToMatch, ← BitVec.toNat_inj, BitVec.toNat_add, BitVec.toNat_sub, BitVec.toNat_ofNat]
  omega

/-- Settles O36: no arrival before the distance matches, and the arrival at it does. -/
theorem nextMatchDistance : Obligations.NextMatchDistance := by
  intro s harm
  dsimp only
  rw [← distanceToMatch_eq_subMod]
  have hle := distanceToMatch_le s.cmp s.rawCounter
  have before {k : Nat} (hk : k < distanceToMatch s.cmp s.rawCounter) :
      State.counterStep^[k] s = { s with rawCounter := s.rawCounter + BitVec.ofNat 24 k } := by
    refine iterate_counterStep_of_no_match fun i hi hmatch => ?_
    have := (counterSucc_eq_cmp_iff (by omega)).1 hmatch.2
    omega
  refine ⟨Nat.le_add_left 1 _, hle, rfl, fun k => before, ?_⟩
  obtain ⟨d, hd⟩ : ∃ d, distanceToMatch s.cmp s.rawCounter = d + 1 := ⟨_, rfl⟩
  have hlast := before (k := d) (by omega)
  have harrive : counterSucc (s.rawCounter + BitVec.ofNat 24 d) = s.cmp :=
    (counterSucc_eq_cmp_iff (by omega)).2 hd.symm
  have hmatch : Matches (State.counterStep^[d] s).armed (counterSucc (State.counterStep^[d] s).rawCounter)
      (State.counterStep^[d] s).cmp := by
    rw [hlast]; exact ⟨harm, harrive⟩
  rw [hd, Function.iterate_succ_apply', counterStep_of_match _ hmatch, hlast, harrive]

end Sys2Proof.Machine
end

section
/-! ## Reads and reloads with COUNTER steps in between (R53, R91, R95, R175) -/

namespace Sys2Proof.Machine

/-! ### What any number of COUNTER steps leaves alone -/

section
variable (s : State) (k : Nat)

@[simp] theorem iterate_counterStep_config : (State.counterStep^[k] s).config = s.config :=
  congrFun (Function.iterate_invariant (funext State.counterStep_config) k) s
@[simp] theorem iterate_counterStep_tickCounter : (State.counterStep^[k] s).tickCounter = s.tickCounter :=
  congrFun (Function.iterate_invariant (funext State.counterStep_tickCounter) k) s
@[simp] theorem iterate_counterStep_phase : (State.counterStep^[k] s).phase = s.phase :=
  congrFun (Function.iterate_invariant (funext State.counterStep_phase) k) s
@[simp] theorem iterate_counterStep_mseq : (State.counterStep^[k] s).mseq = s.mseq :=
  congrFun (Function.iterate_invariant (funext State.counterStep_mseq) k) s
@[simp] theorem iterate_counterStep_iseq : (State.counterStep^[k] s).iseq = s.iseq :=
  congrFun (Function.iterate_invariant (funext State.counterStep_iseq) k) s
@[simp] theorem iterate_counterStep_armPos : (State.counterStep^[k] s).armPos = s.armPos :=
  congrFun (Function.iterate_invariant (g := State.armPos) (funext counterStep_armPos) k) s
@[simp] theorem iterate_counterStep_snap : (State.counterStep^[k] s).snap = s.snap :=
  congrFun (Function.iterate_invariant (funext State.counterStep_snap) k) s
@[simp] theorem iterate_counterStep_newcmp : (State.counterStep^[k] s).newcmp = s.newcmp :=
  congrFun (Function.iterate_invariant (funext State.counterStep_newcmp) k) s
@[simp] theorem iterate_counterStep_cntLatch : (State.counterStep^[k] s).cntLatch = s.cntLatch :=
  congrFun (Function.iterate_invariant (funext State.counterStep_cntLatch) k) s
@[simp] theorem iterate_counterStep_cmp : (State.counterStep^[k] s).cmp = s.cmp :=
  congrFun (Function.iterate_invariant (funext State.counterStep_cmp) k) s
@[simp] theorem iterate_counterStep_cmpHold : (State.counterStep^[k] s).cmpHold = s.cmpHold :=
  congrFun (Function.iterate_invariant (funext State.counterStep_cmpHold) k) s
@[simp] theorem iterate_counterStep_irqEnable : (State.counterStep^[k] s).irqEnable = s.irqEnable :=
  congrFun (Function.iterate_invariant (funext State.counterStep_irqEnable) k) s
@[simp] theorem iterate_counterStep_pins : (State.counterStep^[k] s).pins = s.pins :=
  congrFun (Function.iterate_invariant (funext State.counterStep_pins) k) s

end

/-- From A1 on, no COUNTER step touches what the reload's registers hold: the upper bytes of the counter are latched. -/
theorem State.ReloadAt.iterate_counterStep {s : State} {v : Word24} {a : ArmPos} (h : s.ReloadAt v a) (ha : a ≠ .a0)
    (k : Nat) : (State.counterStep^[k] s).ReloadAt v a := by
  cases a with
  | a0 => exact absurd rfl ha
  | _ => simpa [State.ReloadAt] using h

/-! ### The snapshot -/

/-- What a read of `READ_RAW_COUNTER` leaves alone: the compare side of the timer, the counter, and the registers that
take no part in the snapshot (R91). -/
structure ReadFrame (s t : State) : Prop where
  cmp : t.cmp = s.cmp
  cmpHold : t.cmpHold = s.cmpHold
  newcmp : t.newcmp = s.newcmp
  tickCounter : t.tickCounter = s.tickCounter
  rawCounter : t.rawCounter = s.rawCounter

theorem armMicroStep_readFrame {s t : State} {a : ArmPos} (ha : a.operation = .readRawCounter)
    (h : s.armMicroStep a = .next t) : ReadFrame s t := by
  cases a with
  | a0 => cases h; constructor <;> simp
  | a1 => cases h; constructor <;> simp
  | a2 => cases h; constructor <;> simp
  | _ => cases ha

/-- A read of `READ_RAW_COUNTER` brings the snapshot to the next position. -/
theorem exec_readRawCounter_advances {s : State} {v : Word24} {a b : ArmPos} (hnext : a.next = some b)
    (ha : a.operation = .readRawCounter) (hpos : s.armPos = some a) (h : s.ReloadAt v a) :
    ∃ t, exec .readRawCounter s = .next t ∧ t.armPos = some b ∧ t.ReloadAt v b ∧ ReadFrame s t := by
  have hready : a = .a4 → s.pins.loadReady = true := by rintro rfl; cases ha
  obtain ⟨t, ht, hpos', hat⟩ := armMicroStep_advances hnext hready h
  exact ⟨t, by rw [← ha, exec_arm_operation hpos, ht], hpos', hat, armMicroStep_readFrame ha ht⟩

/-- The same after COUNTER steps, which the latch keeps out of the snapshot. -/
theorem exec_readRawCounter_advances_after {s : State} {v : Word24} {a b : ArmPos} (k : Nat) (hnext : a.next = some b)
    (ha : a.operation = .readRawCounter) (ha0 : a ≠ .a0) (hpos : s.armPos = some a) (h : s.ReloadAt v a) :
    ∃ t, exec .readRawCounter (State.counterStep^[k] s) = .next t ∧ t.armPos = some b ∧ t.ReloadAt v b ∧
      ReadFrame (State.counterStep^[k] s) t :=
  exec_readRawCounter_advances hnext ha ((iterate_counterStep_armPos s k).trans hpos) (h.iterate_counterStep ha0 k)

/-- Settles O15: A0 reads the low byte and latches the upper two, which the later reads take from the latch. -/
theorem snapshotIsTheCounterAtTheFirstRead : Obligations.SnapshotIsTheCounterAtTheFirstRead := by
  intro s j k hpos
  obtain ⟨t₁, ht₁, hpos₁, hat₁, hf₁⟩ := exec_readRawCounter_advances (b := .a1) rfl rfl hpos (v := s.rawCounter) rfl
  obtain ⟨t₂, ht₂, hpos₂, hat₂, hf₂⟩ := exec_readRawCounter_advances_after (b := .a2) j rfl rfl (by simp) hpos₁ hat₁
  obtain ⟨t₃, ht₃, hpos₃, hat₃, hf₃⟩ := exec_readRawCounter_advances_after (b := .a3) k rfl rfl (by simp) hpos₂ hat₂
  refine ⟨t₁, t₂, t₃, ht₁, ht₂, ht₃, hat₃, hpos₃, ?_, ?_, ?_, ?_, ?_⟩
  · rw [hf₃.cmp, iterate_counterStep_cmp, hf₂.cmp, iterate_counterStep_cmp, hf₁.cmp]
  · rw [hf₃.cmpHold, iterate_counterStep_cmpHold, hf₂.cmpHold, iterate_counterStep_cmpHold, hf₁.cmpHold]
  · rw [hf₃.newcmp, iterate_counterStep_newcmp, hf₂.newcmp, iterate_counterStep_newcmp, hf₁.newcmp]
  · rw [hf₃.tickCounter, iterate_counterStep_tickCounter, hf₂.tickCounter, iterate_counterStep_tickCounter,
      hf₁.tickCounter]
  · rw [hf₃.rawCounter, iterate_counterStep_rawCounter, hf₂.rawCounter, iterate_counterStep_rawCounter, hf₁.rawCounter,
      BitVec.add_assoc, BitVec.ofNat_add]

/-! ### The whole reload -/

/-- What neither a COUNTER step nor a micro-step of the reload changes. A pass stays a pass, and the mainline sequencer
stays where a pass found it. -/
structure InterleavedFrame (s t : State) : Prop where
  config : t.config = s.config
  tickCounter : t.tickCounter = s.tickCounter
  phase : t.phase = s.phase
  irqEnable : t.irqEnable = s.irqEnable
  pins : t.pins = s.pins
  idle : t.iseq = .idle ↔ s.iseq = .idle
  mseq : s.iseq ≠ .idle → t.mseq = s.mseq

theorem InterleavedFrame.trans {s t u : State} (h : InterleavedFrame s t) (h' : InterleavedFrame t u) :
    InterleavedFrame s u where
  config := h'.config.trans h.config
  tickCounter := h'.tickCounter.trans h.tickCounter
  phase := h'.phase.trans h.phase
  irqEnable := h'.irqEnable.trans h.irqEnable
  pins := h'.pins.trans h.pins
  idle := h'.idle.trans h.idle
  mseq hs := (h'.mseq (mt h.idle.1 hs)).trans (h.mseq hs)

theorem iterate_counterStep_interleavedFrame (s : State) (k : Nat) : InterleavedFrame s (State.counterStep^[k] s) := by
  constructor <;> simp

theorem armMicroStep_pins {s t : State} {a : ArmPos} (h : s.armMicroStep a = .next t) : t.pins = s.pins := by
  rcases armMicroStep_cases h with ⟨-, rfl⟩ | ⟨-, rfl⟩ | ⟨-, b, snap, newcmp, latch, hold, rfl⟩
  · simp
  · rfl
  · simp

theorem armMicroStep_interleavedFrame {s t : State} {a : ArmPos} (hpos : s.armPos = some a)
    (h : s.armMicroStep a = .next t) : InterleavedFrame s t := by
  have hf := armMicroStep_frame h
  have hseq : (t.iseq = .idle ↔ s.iseq = .idle) ∧ (s.iseq ≠ .idle → t.mseq = s.mseq) := by
    rcases armPos_cases hpos with ⟨hi, hm⟩ | hi
    · have hi' := (armMicroStep_position_of_mainline hi hm h).1
      exact ⟨by simp [hi, hi'], fun hs => absurd hi hs⟩
    · obtain ⟨hm', ⟨-, hi'⟩ | ⟨-, b, hi'⟩⟩ := armMicroStep_position_of_isr hi h
      · exact ⟨by simp [hi, hi'], fun _ => hm'⟩
      · exact ⟨by simp [hi, hi'], fun _ => hm'⟩
  exact ⟨hf.config, hf.tickCounter, hf.phase, hf.irqEnable, armMicroStep_pins h, hseq.1, hseq.2⟩

/-- A7 leaves for the successor of the sequencer that ran the reload (R92, R123). -/
theorem armMicroStep_a7_position {s t : State} (hpos : s.armPos = some .a7) (h : s.armMicroStep .a7 = .next t) :
    (t.iseq = .idle → t.mseq = .en) ∧ (t.iseq ≠ .idle → t.iseq = .inc) := by
  rcases armPos_cases hpos with ⟨hi, hm⟩ | hi
  · obtain ⟨hi', hm'⟩ := armMicroStep_position_of_mainline hi hm h
    exact ⟨fun _ => by simpa using hm', fun hs => absurd hi' hs⟩
  · have hi' : t.iseq = .inc := by simpa using (armMicroStep_position_of_isr hi h).2
    exact ⟨by simp [hi'], fun _ => hi'⟩

/-- An interleaved reload takes its COUNTER steps and its micro-step, and goes on. -/
theorem interleavedReload_cons {s t : State} {a : ArmPos} {k : Nat} (ks : List Nat) (hpos : s.armPos = some a)
    (h : (State.counterStep^[k] s).armMicroStep a = .next t) :
    interleavedReload (k :: ks) s = interleavedReload ks t := by
  rw [interleavedReload, exec_armNextCompare_of_armPos ((iterate_counterStep_armPos s k).trans hpos), h]

/-- The number of micro-steps a reload still takes. -/
def ArmPos.left : ArmPos → Nat
  | .a0 => 8
  | .a1 => 7
  | .a2 => 6
  | .a3 => 5
  | .a4 => 4
  | .a5 => 3
  | .a6 => 2
  | .a7 => 1

theorem ArmPos.left_of_next {a b : ArmPos} (h : a.next = some b) : a.left = b.left + 1 := by
  cases a <;> cases h <;> rfl

theorem ArmPos.eq_a7_of_next {a : ArmPos} (h : a.next = none) : a = .a7 := by
  cases a <;> cases h; rfl

theorem ArmPos.ne_a0_of_next {a b : ArmPos} (h : a.next = some b) : b ≠ .a0 := by
  cases a <;> cases h <;> simp

/-- What a completed reload of the counter's value `v`, with `n` COUNTER steps since it was read, leaves behind. -/
structure ReloadDone (v : Word24) (n : Nat) (s t : State) : Prop where
  snap : t.snap = v
  cmp : t.cmp = v + intervalWord s.config
  newcmp : t.newcmp = t.cmp
  armed : t.armed = true
  rawCounter : t.rawCounter = v + BitVec.ofNat 24 n
  frame : InterleavedFrame s t
  leftInit : t.iseq = .idle → t.mseq = .en
  leftIsr : t.iseq ≠ .idle → t.iseq = .inc

/-- The rest of an interleaved reload from a position after A0, `n` COUNTER steps after the read. -/
theorem interleavedReload_completes {v : Word24} {ks : List Nat} {s : State} {a : ArmPos} {n : Nat}
    (hpos : s.armPos = some a) (ha : a ≠ .a0) (hks : ks.length = a.left) (hready : s.pins.loadReady = true)
    (hat : s.ReloadAt v a) (hraw : s.rawCounter = v + BitVec.ofNat 24 n) :
    ∃ t, interleavedReload ks s = .next t ∧ ReloadDone v (n + ks.sum) s t := by
  induction ks generalizing s a n with
  | nil => cases a <;> cases hks
  | cons k ks ih =>
    have hf := iterate_counterStep_interleavedFrame s k
    have hat' := hat.iterate_counterStep ha k
    have hpos' := (iterate_counterStep_armPos s k).trans hpos
    have hready' : (State.counterStep^[k] s).pins.loadReady = true := hf.pins ▸ hready
    obtain ⟨t, ht⟩ := armMicroStep_next (State.counterStep^[k] s) a
    have hft := hf.trans (armMicroStep_interleavedFrame hpos' ht)
    have hrawt : t.rawCounter = v + BitVec.ofNat 24 (n + k) := by
      rw [(armMicroStep_frame ht).rawCounter, iterate_counterStep_rawCounter, hraw, BitVec.add_assoc, BitVec.ofNat_add]
    rw [interleavedReload_cons ks hpos ht]
    cases hnext : a.next with
    | some b =>
      obtain ⟨t', ht', hpost, hatt⟩ := armMicroStep_advances hnext (fun _ => hready') hat'
      cases ht.symm.trans ht'
      have hlen : ks.length = b.left := Nat.succ.inj (hks.trans (ArmPos.left_of_next hnext))
      obtain ⟨u, hu, hdone⟩ := ih hpost (ArmPos.ne_a0_of_next hnext) hlen (hft.pins ▸ hready) hatt hrawt
      exact ⟨u, hu, { hdone with
        cmp := hft.config ▸ hdone.cmp
        rawCounter := by rw [hdone.rawCounter, List.sum_cons, Nat.add_assoc]
        frame := hft.trans hdone.frame }⟩
    | none =>
      obtain rfl := ArmPos.eq_a7_of_next hnext
      obtain rfl : ks = [] := List.eq_nil_of_length_eq_zero (Nat.succ.inj hks)
      obtain ⟨-, hsnap, hcmp, hnew, harmed⟩ := armMicroStep_adopts hat' ht
      obtain ⟨hinit, hisr⟩ := armMicroStep_a7_position hpos' ht
      exact ⟨t, rfl, hsnap, hft.config ▸ hcmp, hnew, harmed, by simpa using hrawt, hft, hinit, hisr⟩

/-- The distance to the match after `k` COUNTER steps since the counter was at `v`, for a compare value `n` ahead of it:
the rest of the interval, or round the counter once the compare value has passed (R95, R175). -/
theorem distanceToMatch_reload (v : Word24) {n : Nat} (hn : n < 2 ^ 24) (k : Nat) :
    distanceToMatch (v + BitVec.ofNat 24 n) (v + BitVec.ofNat 24 k) =
      if k < n then n - k else 2 ^ 24 - (k - n) % 2 ^ 24 := by
  have hsub : v + BitVec.ofNat 24 n - (v + BitVec.ofNat 24 k) = BitVec.ofNat 24 n - BitVec.ofNat 24 k :=
    add_sub_add_left_eq_sub _ _ _
  have hone : (1 : Word24).toNat = 1 := rfl
  simp only [distanceToMatch, hsub, BitVec.toNat_sub, BitVec.toNat_ofNat, hone]
  split <;> omega

/-- Settles O19: the first leg reads the counter at A0, and the rest of the reload completes from there. -/
theorem interleavedReloadAdoptsTheSnapshotPlusInterval :
    Obligations.InterleavedReloadAdoptsTheSnapshotPlusInterval := by
  intro s k₀ ks hl hpos hready hks
  have hf := iterate_counterStep_interleavedFrame s k₀
  have hpos' := (iterate_counterStep_armPos s k₀).trans hpos
  obtain ⟨t₁, ht₁, hpos₁, hat₁⟩ := armMicroStep_advances (s := State.counterStep^[k₀] s)
    (v := (State.counterStep^[k₀] s).rawCounter) (a := .a0) (b := .a1) rfl nofun rfl
  have hf₁ := hf.trans (armMicroStep_interleavedFrame hpos' ht₁)
  obtain ⟨t, ht, hdone⟩ := interleavedReload_completes (n := 0) hpos₁ (by simp) hks (hf₁.pins ▸ hready) hat₁
    (by rw [(armMicroStep_frame ht₁).rawCounter]; simp)
  have hft := hf₁.trans hdone.frame
  have hcmp : t.cmp = t.snap + BitVec.ofNat 24 s.config.tickInterval := by
    rw [hdone.cmp, hdone.snap, hf₁.config, intervalWord]
  have hraw : t.rawCounter = t.snap + BitVec.ofNat 24 ks.sum := by
    rw [hdone.rawCounter, hdone.snap, Nat.zero_add]
  refine ⟨t, (interleavedReload_cons ks hpos ht₁).trans ht, ?_, hcmp, hdone.newcmp, hdone.armed, hraw, ?_,
    hft.tickCounter, hft.irqEnable, hft.phase, fun hi => ?_, fun hi => ?_⟩
  · rw [hdone.snap, iterate_counterStep_rawCounter]
  · rw [hcmp, hraw, distanceToMatch_reload _ hl.tickInterval_lt]
  · have hi' := hft.idle.2 hi
    exact ⟨hdone.leftInit hi', hi'⟩
  · exact ⟨hdone.leftIsr (mt hft.idle.1 hi), hft.mseq hi⟩

end Sys2Proof.Machine
end

section
/-! ## The arithmetic of ticks (spec/41_tick_service.md R114, R117, R118) -/

namespace Sys2Proof

/-- Where the subtraction wraps, the modular difference is what is left of a lap. -/
theorem subMod_of_lt {n a b : Nat} (hb : b < 2 ^ n) (h : a < b) : subMod n a b = 2 ^ n - (b - a) :=
  (subMod_eq_iff (by omega)).2 (by rw [show b + (2 ^ n - (b - a)) = a + 2 ^ n by omega, Nat.add_mod_right])

/-- The elapsed count says by how many ticks one value is ahead of another. -/
theorem subMod_eq_mod_iff {n a b k : Nat} : subMod n a b = k % 2 ^ n ↔ (b + k) % 2 ^ n = a % 2 ^ n := by
  rw [subMod_eq_iff (Nat.mod_lt k (Nat.two_pow_pos n)), Nat.add_mod_mod]

namespace Machine

/-- Settles O26: within half the range the modular difference is the difference, or half the range and more. -/
theorem expiryAgreesWithPlainComparison : Obligations.ExpiryAgreesWithPlainComparison := by
  intro c n now hw hn hnow
  have hhalf : 2 ^ c.tickW = 2 * 2 ^ (c.tickW - 1) := by rw [← Nat.pow_succ', Nat.succ_eq_add_one,
    Nat.sub_add_cancel hw]
  refine ⟨fun hle hnear => ?_, fun hlt hnear => ?_⟩
  · rw [Expired, subMod_eq_sub hnow hle]; exact hnear
  · rw [Expired, subMod_of_lt hn hlt]; omega

/-- Settles O31: the elapsed count after `e` increments is `e`. -/
theorem delayTestCountsElapsedTicks : Obligations.DelayTestCountsElapsedTicks := by
  intro s e _ he htick
  have helapsed : elapsedTicks s.config s.tickCounter s.dlyStart = e := by
    rw [elapsedTicks, htick, subMod_mod_left, subMod_add_left, Nat.mod_eq_of_lt he]
  rw [State.DelayDone, helapsed]

/-- Settles O32: dividing by the truncated `JIFFY` gives no less than multiplying by the rate first. -/
theorem delayErrsLong : Obligations.DelayErrsLong := by
  intro c ms hl
  have ⟨_, hrate, _⟩ := hl
  refine ⟨?_, Nat.div_le_self ms c.jiffy⟩
  calc ms * c.ticksPerSecond / 1000
      ≤ ms * c.ticksPerSecond / (c.jiffy * c.ticksPerSecond) :=
        Nat.div_le_div_left (Nat.div_mul_le_self 1000 c.ticksPerSecond) (Nat.mul_pos hl.jiffy_pos hrate)
    _ = ms / c.jiffy := Nat.mul_div_mul_right _ _ hrate

end Machine
end Sys2Proof
end

section
/-! ## `TickCounter` and the elapsed count of a delay count passes (spec/41_tick_service.md R121, R127)

A micro-step appends events to the history, and what it does to `TickCounter`, with one more while the pass in progress
is not counted yet, is one for each `IRQ_ENTRY` among them. -/

namespace Sys2Proof.Machine

/-! ### The passes a history shows -/

/-- The number of passes that begin in a list of events. -/
def passesIn (es : List Event) : Nat := es.countP (fun e => decide (e = .irqEntry))

/-- Events without the mark add their passes to those since the mark. -/
theorem passesSince_append {stop : Event → Bool} {es : List Event} (h : List Event)
    (hes : ∀ e ∈ es, stop e = false) : passesSince stop (h ++ es) = passesSince stop h + passesIn es := by
  have hrev : ∀ e ∈ es.reverse, (!stop e) = true := by simpa using hes
  rw [passesSince, List.reverse_append, List.takeWhile_append_of_pos hrev, List.countP_append, List.countP_reverse,
    Nat.add_comm]
  rfl

/-- At the mark the count begins again. -/
theorem passesSince_mark {stop : Event → Bool} {e : Event} (h : List Event) (he : stop e = true) :
    passesSince stop (h ++ [e]) = 0 := by
  simp [passesSince, he]

/-! ### What the micro-steps that test something record -/

/-- A COUNTER step records a match (R142). -/
theorem counterStep_history (s : State) : s.counterStep.history =
    s.history ++ if Matches s.armed (counterSucc s.rawCounter) s.cmp then [.matched] else [] := by
  unfold State.counterStep; split <;> simp

/-- The check records `POLL_REQ` when a pending timer has expired (R112, R114). -/
theorem tickCheck_history (s : State) : (tickCheck s).history = s.history ++
    if s.pins.etPending = true ∧ Expired s.config s.pins.etNext s.tickCounter then [.pollReq] else [] := by
  unfold tickCheck; split <;> simp

/-- The check changes only the position and the history. -/
theorem tickCheck_eq (s : State) : tickCheck s = { s with
    iseq := .clr
    history := s.history ++
      if s.pins.etPending = true ∧ Expired s.config s.pins.etNext s.tickCounter then [.pollReq] else [] } := by
  rw [← tickCheck_history]; unfold tickCheck; split <;> rfl

/-! ### What is counted and what is still to be counted -/

section
variable {s t : State}

theorem uncounted_congr (h : t.iseq = s.iseq) : t.uncounted = s.uncounted := by
  simp only [State.uncounted, h]

theorem uncounted_of_beforeIncrement (h : s.iseq = .inc ∨ ∃ a, s.iseq = .arm a) : s.uncounted = 1 := by
  rcases h with h | ⟨a, h⟩ <;> simp [State.uncounted, h]

theorem uncounted_of_idle (h : s.iseq = .idle) : s.uncounted = 0 := by
  simp [State.uncounted, h]

/-- A micro-step appends `es`, no mark of a reset and, while a command is in progress, no acceptance, and what it counts
or leaves to be counted are the passes that begin in `es`. -/
structure CountsPasses (s t : State) (es : List Event) : Prop where
  history : t.history = s.history ++ es
  noReset : ∀ e ∈ es, isReset e = false
  noCommand : s.mseq ≠ .idle → ∀ e ∈ es, isCommand e = false
  ticks : (t.tickCounter + t.uncounted) % 2 ^ s.config.tickW =
    (s.tickCounter + s.uncounted + passesIn es) % 2 ^ s.config.tickW

/-- A micro-step that appends nothing. -/
theorem countsPasses_nil (hhist : t.history = s.history)
    (hticks : (t.tickCounter + t.uncounted) % 2 ^ s.config.tickW =
      (s.tickCounter + s.uncounted) % 2 ^ s.config.tickW) : CountsPasses s t [] :=
  ⟨by simpa using hhist, by simp, by simp, hticks⟩

/-- A micro-step that appends one event that is neither a mark nor an acceptance. -/
theorem countsPasses_one {e : Event} (hhist : t.history = s.history ++ [e]) (hr : isReset e = false)
    (hc : isCommand e = false)
    (hticks : (t.tickCounter + t.uncounted) % 2 ^ s.config.tickW =
      (s.tickCounter + s.uncounted + passesIn [e]) % 2 ^ s.config.tickW) : CountsPasses s t [e] :=
  ⟨hhist, by simpa using hr, fun _ => by simpa using hc, hticks⟩

/-- An acceptance, with the events of the operation it starts. -/
theorem countsPasses_accept {op : Nat} {arg : Tick} {es : List Event} (hm : s.mseq = .idle)
    (hhist : t.history = s.history ++ .cmd op arg :: es) (hes : ∀ e ∈ es, ∃ o d, e = .rsp o d)
    (hticks : t.tickCounter = s.tickCounter) (hi : t.iseq = s.iseq) : CountsPasses s t (.cmd op arg :: es) where
  history := hhist
  noReset := by
    intro e he
    rcases List.mem_cons.1 he with rfl | he
    · rfl
    · obtain ⟨o, d, rfl⟩ := hes e he; rfl
  noCommand hbusy := absurd hm hbusy
  ticks := by
    have hnone : passesIn (.cmd op arg :: es) = 0 := by
      refine List.countP_eq_zero.2 fun e he => ?_
      rcases List.mem_cons.1 he with rfl | he
      · simp
      · obtain ⟨o, d, rfl⟩ := hes e he; simp
    rw [hnone, hticks, uncounted_congr hi, Nat.add_zero]

/-- What is counted and what is to be counted stays, in a micro-step that begins no pass. -/
theorem ticks_stay {n : Nat} (hticks : t.tickCounter = s.tickCounter) (hun : t.uncounted = s.uncounted) :
    (t.tickCounter + t.uncounted) % n = (s.tickCounter + s.uncounted) % n := by
  rw [hticks, hun]

/-- The events of a micro-step of the reload: an adoption at A7, else none. -/
theorem armMicroStep_countsPasses {a : ArmPos} (h : s.armMicroStep a = .next t) (hun : t.uncounted = s.uncounted) :
    ∃ es, CountsPasses s t es := by
  have hticks := ticks_stay (n := 2 ^ s.config.tickW) (armMicroStep_frame h).tickCounter hun
  rcases armMicroStep_adoption h with ⟨-, -, -, hhist⟩ | ⟨-, -, -, hhist⟩
  · exact ⟨_, countsPasses_one hhist rfl rfl hticks⟩
  · exact ⟨_, countsPasses_nil hhist hticks⟩

/-- The event of a COUNTER step: a match, or none. -/
theorem counterStep_countsPasses (s : State) : ∃ es, CountsPasses s s.counterStep es := by
  have hticks := ticks_stay (n := 2 ^ s.config.tickW) (State.counterStep_tickCounter s)
    (uncounted_congr (State.counterStep_iseq s))
  by_cases h : Matches s.armed (counterSucc s.rawCounter) s.cmp
  · exact ⟨[.matched], countsPasses_one (by rw [counterStep_history, if_pos h]) rfl rfl hticks⟩
  · exact ⟨_, countsPasses_nil (by rw [counterStep_history, if_neg h, List.append_nil]) hticks⟩

/-- The event of the check: `POLL_REQ`, or none. -/
theorem tickCheck_countsPasses (hi : s.iseq = .chk) : ∃ es, CountsPasses s (tickCheck s) es := by
  have hun : (tickCheck s).uncounted = s.uncounted := by simp [State.uncounted, hi]
  have hticks := ticks_stay (n := 2 ^ s.config.tickW) (tickCheck_tickCounter s) hun
  by_cases h : s.pins.etPending = true ∧ Expired s.config s.pins.etNext s.tickCounter
  · exact ⟨[.pollReq], countsPasses_one (by rw [tickCheck_history, if_pos h]) rfl rfl hticks⟩
  · exact ⟨_, countsPasses_nil (by rw [tickCheck_history, if_neg h, List.append_nil]) hticks⟩

/-- The event of a poll of the delay: its response, or none. -/
theorem delayPoll_countsPasses (s : State) : ∃ es, CountsPasses s (delayPoll s) es := by
  have hticks := ticks_stay (n := 2 ^ s.config.tickW) (delayPoll_tickCounter s)
    (uncounted_congr (delayPoll_iseq s))
  rcases delayPoll_cases s with ⟨-, h⟩ | ⟨-, h⟩
  · exact ⟨[.rsp 0x3 none], countsPasses_one (by rw [h]; rfl) rfl rfl hticks⟩
  · exact ⟨_, countsPasses_nil (by rw [h]) hticks⟩

/-- Entry begins a pass that is to be counted, I_INC counts it, and no other micro-step changes the sum of the two. -/
theorem transition_countsPasses {turn : Turn} (ht : Transition turn s t) (hr : ∀ f, turn ≠ .reset f) :
    ∃ es, CountsPasses s t es := by
  cases ht with
  | reset f => exact absurd rfl (hr f)
  | counter => exact counterStep_countsPasses s
  | idle => exact ⟨_, countsPasses_nil rfl rfl⟩
  | noEntry => exact ⟨_, countsPasses_nil rfl rfl⟩
  | acceptInit o p _ cw hi hm => exact ⟨_, countsPasses_accept (es := []) hm rfl (by simp) rfl rfl⟩
  | acceptTime o p _ cw hi hm =>
    exact ⟨_, countsPasses_accept (es := [.rsp _ _]) hm (List.append_assoc _ _ _) (by simp) rfl rfl⟩
  | acceptSeconds o p _ cw hi hm =>
    exact ⟨_, countsPasses_accept (es := [.rsp _ _]) hm (List.append_assoc _ _ _) (by simp) rfl rfl⟩
  | acceptDelay o p _ cw ms hi hm => exact ⟨_, countsPasses_accept (es := []) hm rfl (by simp) rfl rfl⟩
  | osc => exact ⟨_, countsPasses_nil (by simp) (ticks_stay (by simp) (uncounted_congr (by simp)))⟩
  | mainlineArm o p _ _ a hi hm ha =>
    have hi' := (armMicroStep_position_of_mainline hi hm ha).1
    exact armMicroStep_countsPasses ha (uncounted_congr (hi'.trans hi.symm))
  | enable => exact ⟨_, countsPasses_one rfl rfl rfl (ticks_stay rfl (uncounted_congr rfl))⟩
  | poll => exact delayPoll_countsPasses s
  | entry p _ he =>
    obtain ⟨-, -, hi⟩ := he
    refine ⟨_, countsPasses_one rfl rfl rfl ?_⟩
    rw [uncounted_of_idle hi]
    rfl
  | isrArm p _ _ a hi ha =>
    have hun : t.uncounted = 1 := by
      rcases (armMicroStep_position_of_isr hi ha).2 with ⟨-, h⟩ | ⟨-, h⟩
      · exact uncounted_of_beforeIncrement (.inl h)
      · exact uncounted_of_beforeIncrement (.inr h)
    exact armMicroStep_countsPasses ha (hun.trans (uncounted_of_beforeIncrement (.inr ⟨a, hi⟩)).symm)
  | inc p _ hi =>
    refine ⟨_, countsPasses_nil rfl ?_⟩
    rw [uncounted_of_beforeIncrement (.inl hi)]
    exact Nat.mod_mod (s.tickCounter + 1) (2 ^ s.config.tickW)
  | chk p _ hi => exact tickCheck_countsPasses hi
  | clr p _ hi => exact ⟨_, countsPasses_nil rfl (ticks_stay rfl (by simp [State.uncounted, hi]))⟩
  | ret p _ hi => exact ⟨_, countsPasses_one rfl rfl rfl (ticks_stay rfl (by simp [State.uncounted, hi]))⟩

/-! ### The count since reset -/

theorem transition_keeps_tickExact {turn : Turn} (ht : Transition turn s t) (hs : s.TickExact) : t.TickExact := by
  by_cases hr : ∃ f, turn = .reset f
  · obtain ⟨f, rfl⟩ := hr
    cases ht
    have hpasses : passesSince isReset (s.takeReset f).history = 0 := passesSince_mark _ rfl
    rw [State.TickExact, hpasses]
    rfl
  · obtain ⟨es, hes⟩ := transition_countsPasses ht fun f h => hr ⟨f, h⟩
    unfold State.TickExact addMod at *
    rw [transition_config ht, hes.history, passesSince_append _ hes.noReset, hes.ticks, Nat.add_mod, hs,
      ← Nat.add_mod]

/-! ### The count since the acceptance of a delay -/

/-- M_POLL is reached by the acceptance of a delay, outside a pass. -/
theorem transition_to_poll {turn : Turn} (ht : Transition turn s t) (hm : t.mseq = .poll) :
    s.mseq = .poll ∨ ∃ cw ms, s.iseq = .idle ∧ t = delayStart ms (s.accept cw) := by
  cases ht with
  | acceptDelay o p _ cw ms hi => exact .inr ⟨cw, ms, hi, rfl⟩
  | osc o p _ hi hosc => rcases pollOsc_mseq hosc with h | h <;> exact absurd (h.symm.trans hm) (by simp)
  | mainlineArm o p _ _ a hi hpos ha =>
    rcases (armMicroStep_position_of_mainline hi hpos ha).2 with ⟨-, h⟩ | ⟨-, b, h⟩ <;>
      exact absurd (h.symm.trans hm) (by simp)
  | poll o p _ hi hpoll => exact .inl hpoll
  | isrArm p _ _ a hi ha => exact .inl ((armMicroStep_position_of_isr hi ha).1.symm.trans hm)
  | reset f => cases hm
  | acceptInit => cases hm
  | acceptTime => cases hm
  | acceptSeconds => cases hm
  | enable => cases hm
  | _ => exact .inl (by simpa using hm)

/-- Acceptance starts the elapsed count at 0, with no pass in progress. -/
theorem delayStart_delayExact {cw : Nat} {ms : Tick} (hi : s.iseq = .idle) :
    (delayStart ms (s.accept cw)).DelayExact := by
  intro _
  have hun : (delayStart ms (s.accept cw)).uncounted = 0 := uncounted_of_idle hi
  have hpasses : passesSince isCommand (delayStart ms (s.accept cw)).history = 0 := passesSince_mark _ rfl
  rw [hun, hpasses]
  simp

theorem transition_keeps_delayExact {turn : Turn} (ht : Transition turn s t) (hs : s.DelayExact) : t.DelayExact := by
  intro hm'
  rcases transition_to_poll ht hm' with hm | ⟨cw, ms, hi, rfl⟩
  · have hr : ∀ f, turn ≠ .reset f := by rintro f rfl; cases ht; cases hm'
    obtain ⟨es, hes⟩ := transition_countsPasses ht hr
    have hcount := subMod_eq_mod_iff.1 (hs hm)
    rw [transition_config ht, (transition_poll ht hm hr).1, hes.history,
      passesSince_append _ (hes.noCommand (by simp [hm])), subMod_eq_mod_iff, hes.ticks, ← Nat.add_assoc, Nat.add_mod,
      hcount, ← Nat.add_mod]
  · exact delayStart_delayExact hi hm'

/-- At M_POLL only the poll that finds the delay complete records `RSP(0x3)`. -/
theorem transition_responds {turn : Turn} (ht : Transition turn s t) (hm : s.mseq = .poll)
    (hrsp : t.history = s.history ++ [.rsp 0x3 none]) : s.iseq = .idle ∧ s.DelayDone := by
  cases ht with
  | poll o p _ hi =>
    rcases delayPoll_cases s with ⟨hdone, -⟩ | ⟨-, h⟩
    · exact ⟨hi, hdone⟩
    · simp [h] at hrsp
  | counter => rw [counterStep_history] at hrsp; split at hrsp <;> simp at hrsp
  | chk => rw [tickCheck_history] at hrsp; split at hrsp <;> simp at hrsp
  | isrArm p _ _ a hi ha =>
    rcases armMicroStep_adoption ha with ⟨-, -, -, h⟩ | ⟨-, -, -, h⟩ <;> simp [h] at hrsp
  | mainlineArm o p _ _ a hi hm' => exact absurd (hm.symm.trans hm') (by simp)
  | enable o p _ hi hm' => exact absurd (hm.symm.trans hm') (by simp)
  | acceptTime o p _ cw hi hm' => exact absurd (hm.symm.trans hm') (by simp)
  | acceptSeconds o p _ cw hi hm' => exact absurd (hm.symm.trans hm') (by simp)
  | _ => simp at hrsp

end

/-- Settles O58: what is counted and what is to be counted follow the passes, and a reset begins both again. -/
theorem stepKeepsTicksExact : Obligations.StepKeepsTicksExact := by
  intro s t hs hstep
  obtain ⟨pins, turns, n, htrans⟩ := step_transition hstep
  exact transition_keeps_tickExact htrans hs

/-- Settles O59: no command is accepted at M_POLL, so the count since the acceptance goes on as `TickCounter` does. -/
theorem stepKeepsTheDelayExact : Obligations.StepKeepsTheDelayExact := by
  intro s t hs hstep
  obtain ⟨pins, turns, n, htrans⟩ := step_transition hstep
  exact transition_keeps_delayExact htrans hs

/-- Settles O60: the poll responds outside a pass, where the elapsed count is the number of passes up to laps. -/
theorem delayNeverReturnsEarly : Obligations.DelayNeverReturnsEarly := by
  intro s t hs hm hstep hrsp
  obtain ⟨pins, turns, n, htrans⟩ := step_transition hstep
  obtain ⟨hi, hdone⟩ : s.iseq = .idle ∧ s.DelayDone := (transition_responds htrans hm hrsp :)
  have hcount := hs hm
  rw [uncounted_of_idle hi, Nat.add_zero] at hcount
  calc s.dlyTicks ≤ subMod s.config.tickW s.tickCounter s.dlyStart := hdone
    _ = passesSince isCommand s.history % 2 ^ s.config.tickW := hcount
    _ ≤ passesSince isCommand s.history := Nat.mod_le _ _

end Sys2Proof.Machine
end

section
/-! ## The micro-steps of the tick service, one by one (spec/41_tick_service.md) -/

namespace Sys2Proof

/-- A word with nothing above its operand is `CLOCK_INIT`, whatever the operand (R70, R72). -/
theorem decodeCommand_of_code_zero {c : Config} {cw : Nat} (h : cw < 2 ^ c.tickW) :
    decodeCommand c cw = .ok .clockInit := by
  have hcode : c.cmdOp cw = 0 := by rw [Config.cmdOp, Nat.div_eq_of_lt h]
  exact decodeCommand_of_command (h.trans (Nat.pow_lt_pow_right (by decide) (by omega))) (by rw [hcode]; rfl) rfl

namespace Machine

/-- A response in the accepting micro-step only records: the mainline sequencer is at M_IDLE already (R76). -/
theorem respond_of_idle {s : State} (hm : s.mseq = .idle) (op : Nat) (d : Option Tick) :
    s.respond op d = s.emit (.rsp op d) := by
  rw [State.respond, ← hm]; rfl

/-! ### The two phases (R110, R124, R125) -/

/-- Before `CLOCK_INIT` every other command is refused, by its code (R124). -/
theorem exec_before_clockInit {s : State} {i : Instr} (hacc : s.CanAccept) (hp : s.phase = .uninitialized)
    (hi : i.isCommand = true) (hne : i ≠ .clockInit) : exec i s = .refused (.beforeClockInit i.code) := by
  have ⟨hm, hidle⟩ := hacc
  cases i with
  | clockInit => exact absurd rfl hne
  | clockTime => simp [exec, execClockTime, hacc, hp, Instr.code]
  | clockSeconds => simp [exec, execClockSeconds, hacc, hp, Instr.code]
  | clockDelay ms => simp [exec, execClockDelay, hm, hidle, hp, Instr.code]
  | initClockSource => cases hi
  | readRawCounter => cases hi
  | armNextCompare => cases hi
  | tickIsr => cases hi

/-- A second `CLOCK_INIT` is refused (R125). -/
theorem exec_second_clockInit {s : State} (hacc : s.CanAccept) (hp : s.phase = .running) :
    exec .clockInit s = .refused .secondClockInit := by
  obtain ⟨hm, hi⟩ := hacc
  simp [exec, execClockInit, hm, hi, hp]

/-- On MAINLINE's turn with both sequencers idle, a presented command does what its meaning does at acceptance. -/
theorem step_of_command {s : State} {offer : Option Nat} {pins : Pins} {cw : Nat} {i : Instr} (hl : s.config.Legal)
    (hturn : s.nextTurn = .mainline offer pins) (hacc : s.CanAccept) (hcw : s.offered offer = some cw)
    (hd : decodeCommand s.config cw = .ok i) :
    ∃ t : State, step s = exec i t ∧ t.CanAccept ∧ t.phase = s.phase := by
  obtain ⟨hstep, hconfig⟩ := step_of_presented hl hturn hacc hcw
  refine ⟨_, hstep.trans (acceptCommand_of_decoded (hconfig.symm ▸ hd)), ?_⟩
  obtain ⟨p, turns, n, h₀⟩ := latchTurn_takeTurn s (.mainline offer pins)
  rw [h₀]
  exact ⟨hacc, rfl⟩

/-- Settles O9: the codes 1 to 3 are those of the commands that need a running machine. -/
theorem refusedBeforeClockInit : Obligations.RefusedBeforeClockInit := by
  intro s offer pins cw hl hturn hacc hcw hp hlt h1 h3
  rw [← cmdOp_of_lt hlt] at h1 h3 ⊢
  obtain ⟨i, hop, hcode⟩ := decodeOperation_of_lt (s.config.cmdArg cw) (by omega : s.config.cmdOp cw < 8)
  have hi : i.isCommand = true := i.isCommand_iff_code.2 (by omega)
  have hne : i ≠ .clockInit := by rintro rfl; rw [← hcode] at h1; cases h1
  obtain ⟨t, hstep, hacc', hp'⟩ := step_of_command hl hturn hacc hcw (decodeCommand_of_command hlt hop hi)
  rw [hstep, exec_before_clockInit hacc' (hp'.trans hp) hi hne, hcode]

/-- Settles O10: a word with code 0 is `CLOCK_INIT`, whatever its operand. -/
theorem secondClockInitRefused : Obligations.SecondClockInitRefused := by
  intro s offer pins cw hl hturn hacc hcw hp hlt
  obtain ⟨t, hstep, hacc', hp'⟩ := step_of_command hl hturn hacc hcw (decodeCommand_of_code_zero hlt)
  rw [hstep, exec_second_clockInit hacc' (hp'.trans hp)]

/-- Past M_OSC no sequencer is in `INIT_CLOCK_SOURCE` (R73, R90). -/
theorem exec_initClockSource_of_position {s : State} (hidle : s.mseq ≠ .idle) (hosc : s.mseq ≠ .osc) :
    exec .initClockSource s = .refused (.notInProgress 0x4) := by
  cases hm : s.mseq with
  | idle => exact absurd hm hidle
  | osc => exact absurd hm hosc
  | _ => simp [exec, execInitClockSource, hm]

/-- Nothing starts `INIT_CLOCK_SOURCE` once the machine runs (R73, R125). -/
theorem exec_initClockSource_of_running {s : State} (hm : s.mseq = .idle) (hp : s.phase = .running) :
    exec .initClockSource s = .refused (.notInProgress 0x4) := by
  simp [exec, execInitClockSource, hm, hp]

/-- Outside the positions A0 to A2 no sequencer is in `READ_RAW_COUNTER` (R73, R91). -/
theorem exec_readRawCounter_of_position {s : State} (h0 : s.armPos ≠ some .a0) (h1 : s.armPos ≠ some .a1)
    (h2 : s.armPos ≠ some .a2) : exec .readRawCounter s = .refused (.notInProgress 0x5) := by
  cases hpos : s.armPos with
  | none => simp [exec, execReadRawCounter, hpos]
  | some a =>
    cases a with
    | a0 => exact absurd hpos h0
    | a1 => exact absurd hpos h1
    | a2 => exact absurd hpos h2
    | _ => simp [exec, execReadRawCounter, hpos]

/-- Settles O12: each meaning at the positions and in the phase where it stops. -/
theorem meaningsStopByName : Obligations.MeaningsStopByName := by
  intro s ms
  refine ⟨fun hacc hp => ⟨?_, ?_, ?_⟩, exec_second_clockInit, ?_, exec_readRawCounter_of_position, fun hpos => ?_⟩
  · exact exec_before_clockInit hacc hp rfl (by simp)
  · exact exec_before_clockInit hacc hp rfl (by simp)
  · exact exec_before_clockInit hacc hp rfl (by simp)
  · rintro (hi | ⟨hidle, hosc⟩ | ⟨hm, hp⟩)
    · exact if_pos hi
    · exact exec_initClockSource_of_position hidle hosc
    · exact exec_initClockSource_of_running hm hp
  · simp [exec, execArmNextCompare, hpos]

/-! ### The micro-steps -/

/-- Settles O20: acceptance is S0, and M_EN writes the enable and the phase and responds. -/
theorem clockInitSteps : Obligations.ClockInitSteps := by
  intro s hi
  refine ⟨fun hm hp => ?_, fun hm => ?_⟩
  · simp [exec, execClockInit, hi, hm, hp, State.requestOsc]
  · simp [exec, execClockInit, hi, hm, initEnable, State.respond]

/-- Settles O23: the position names the micro-step; the check is `tickCheck_eq`. -/
theorem tickIsrSteps : Obligations.TickIsrSteps := by
  intro s
  refine ⟨fun hi => ?_, fun hi => ?_, fun hi => ?_⟩
  · simp [exec, execTickIsr, hi, tickIncrement, tickSucc, addMod]
  · have hchk : exec .tickIsr s = .next (tickCheck s) := by simp [exec, execTickIsr, hi]
    rw [hchk, tickCheck_eq]
  · simp [exec, execTickIsr, hi, tickClear]

/-- Settles O27: acceptance only records the response. -/
theorem clockTimeResponds : Obligations.ClockTimeResponds := by
  intro s hacc hp
  obtain ⟨hm, -⟩ := id hacc
  simp [exec, execClockTime, hacc, hp, respond_of_idle hm, State.emit]

/-- Settles O28: acceptance only records the response, and the quotient grows with `TickCounter`. -/
theorem clockSecondsResponds : Obligations.ClockSecondsResponds := by
  intro s hacc hp
  obtain ⟨hm, -⟩ := id hacc
  refine ⟨?_, fun hlt => Nat.div_le_div_right (Nat.le_sub_one_of_lt hlt)⟩
  simp [exec, execClockSeconds, hacc, hp, respond_of_idle hm, State.emit, secondsOf]

/-- Settles O29: acceptance in the phase Running is `delayStart`. -/
theorem clockDelayStarts : Obligations.ClockDelayStarts := by
  intro s ms ⟨hm, hi⟩ hp
  simp [exec, execClockDelay, hm, hi, hp, delayStart, delayTicksOf, Config.jiffy]

/-- Settles O30: at M_POLL the meaning is the poll, which no longer looks at the operand. -/
theorem clockDelayPolls : Obligations.ClockDelayPolls := by
  intro s ms hi hm
  have hpoll : exec (.clockDelay ms) s = .next (delayPoll s) := by simp [exec, execClockDelay, hi, hm]
  rw [hpoll, delayPoll]
  rfl

end Machine
end Sys2Proof
end

section
/-! ## Whole runs of `CLOCK_INIT` and of a pass (spec/40_timer_driver.md R92, spec/41_tick_service.md R111 to R113)

Both run the one reload, on their own sequencer. `State.reloading` is the state at each of its positions while the
counter stands still, and `State.reloaded` what it leaves. -/

namespace Sys2Proof.Machine

/-! ### The reload, the counter standing still (R91, R92) -/

/-- `SNAP +_24 TICK_INTERVAL` for a snapshot of the counter as it stands. -/
def State.nextCompare (s : State) : Word24 := s.rawCounter + intervalWord s.config

/-- The registers at each position of a reload that begins in `s`. -/
def State.reloadRegs (s : State) : ArmPos → State
  | .a0 => s
  | .a1 => { s with snap := setLowByte s.snap (lowByte s.rawCounter), cntLatch := upperHalf s.rawCounter }
  | .a2 => { s with snap := setMidByte (setLowByte s.snap (lowByte s.rawCounter)) (midByte s.rawCounter),
                    cntLatch := upperHalf s.rawCounter }
  | .a3 => { s with snap := s.rawCounter, cntLatch := upperHalf s.rawCounter }
  | .a4 => { s with snap := s.rawCounter, cntLatch := upperHalf s.rawCounter, newcmp := s.nextCompare }
  | .a5 => { s with snap := s.rawCounter, cntLatch := upperHalf s.rawCounter, newcmp := s.nextCompare }
  | .a6 => { s with snap := s.rawCounter, cntLatch := upperHalf s.rawCounter, newcmp := s.nextCompare,
                    cmpHold := setHalfHigh s.cmpHold (highByte s.nextCompare) }
  | .a7 => { s with snap := s.rawCounter, cntLatch := upperHalf s.rawCounter, newcmp := s.nextCompare,
                    cmpHold := upperHalf s.nextCompare }

/-- The state at a position of a reload that begins in `s`, on the sequencer that runs there. -/
def State.reloading (s : State) (a : ArmPos) : State := (s.reloadRegs a).gotoArm a

/-- What a completed reload that begins in `s` leaves. -/
def State.reloaded (s : State) : State := State.leaveArm
  { s.reloadRegs .a7 with
    cmp := s.nextCompare, armed := true, history := s.history ++ [.adopt s.nextCompare] }

section
variable {s : State}

@[simp] theorem reloadRegs_config (a : ArmPos) : (s.reloadRegs a).config = s.config := by cases a <;> rfl
@[simp] theorem reloadRegs_iseq (a : ArmPos) : (s.reloadRegs a).iseq = s.iseq := by cases a <;> rfl
@[simp] theorem reloadRegs_pins (a : ArmPos) : (s.reloadRegs a).pins = s.pins := by cases a <;> rfl
@[simp] theorem reloadRegs_turns (a : ArmPos) : (s.reloadRegs a).turns = s.turns := by cases a <;> rfl

/-- The three bytes of a snapshot, read one after another, are the counter's value (R91). -/
theorem setBytes_eq (v w : Word24) :
    setHighByte (setMidByte (setLowByte w (lowByte v)) (midByte v)) (highByte v) = v := by
  simp [setHighByte, setMidByte, setLowByte]

/-- The holding latch after its two writes (R92). -/
theorem setHalves_eq (v : Word24) (h : Half) : setHalfLow (setHalfHigh h (highByte v)) (midByte v) = upperHalf v :=
  half_ext (by simp) (by simp)

/-- Each micro-step of the reload but the last leads to the registers of the next position. -/
theorem reloadRegs_step {a b : ArmPos} (hnext : a.next = some b) (hready : s.pins.loadReady = true) :
    (s.reloadRegs a).armMicroStep a = .next (s.reloading b) := by
  cases a <;> cases hnext
  case a2 => simp [State.reloading, State.reloadRegs, setBytes_eq]
  case a3 => simp [State.reloading, State.reloadRegs, State.nextCompare, reloadValue]
  case a4 => simp [State.reloading, State.reloadRegs, hready]
  case a6 => simp [State.reloading, State.reloadRegs, setHalves_eq]
  all_goals simp [State.reloading, State.reloadRegs]

/-- A micro-step that does not wait reads no position: it overwrites the one where its sequencer stands. -/
theorem armMicroStep_of_gotoArm (hready : s.pins.loadReady = true) (a b : ArmPos) :
    (s.gotoArm b).armMicroStep a = s.armMicroStep a := by
  by_cases hi : s.iseq = .idle
  · rw [gotoArm_of_mainline s hi]
    cases a <;> simp [gotoArm_of_mainline, leaveArm_of_mainline, hi, hready]
  · rw [gotoArm_of_inIsr s hi]
    cases a <;> simp [gotoArm_of_inIsr, leaveArm_of_inIsr, hi, hready]

theorem reloading_step {a b : ArmPos} (hnext : a.next = some b) (hready : s.pins.loadReady = true) :
    (s.reloading a).armMicroStep a = .next (s.reloading b) := by
  rw [State.reloading, armMicroStep_of_gotoArm (by simpa using hready), reloadRegs_step hnext hready]

/-- A7 completes the reload. -/
theorem reloading_last (hready : s.pins.loadReady = true) :
    (s.reloading .a7).armMicroStep .a7 = .next s.reloaded := by
  rw [State.reloading, armMicroStep_of_gotoArm (by simpa using hready), armMicroStep_a7, State.reloaded]
  simp [State.reloadRegs]

theorem reloading_of_mainline (hi : s.iseq = .idle) (a : ArmPos) :
    s.reloading a = { s.reloadRegs a with mseq := .arm a } :=
  gotoArm_of_mainline _ (by simp [hi]) a

theorem reloading_of_inIsr (hi : s.InIsr) (a : ArmPos) : s.reloading a = { s.reloadRegs a with iseq := .arm a } :=
  gotoArm_of_inIsr _ (by simp [State.InIsr, hi]) a

theorem reloaded_of_mainline (hi : s.iseq = .idle) :
    s.reloaded = { s.reloadRegs .a7 with
      cmp := s.nextCompare, armed := true, history := s.history ++ [.adopt s.nextCompare], mseq := .en } :=
  leaveArm_of_mainline _ hi

theorem reloaded_of_inIsr (hi : s.InIsr) :
    s.reloaded = { s.reloadRegs .a7 with
      cmp := s.nextCompare, armed := true, history := s.history ++ [.adopt s.nextCompare], iseq := .inc } :=
  leaveArm_of_inIsr _ hi

end

/-! ### The turns to come -/

/-- The state with these turns to come. -/
def State.withTurns (s : State) (ts : List Turn) : State := { s with turns := ts }

/-- The reload does not look at the turns to come. -/
theorem reloading_withTurns (s : State) (a : ArmPos) (ts : List Turn) :
    (s.reloading a).withTurns ts = (s.withTurns ts).reloading a := by
  by_cases hi : s.iseq = .idle
  · rw [reloading_of_mainline hi, reloading_of_mainline (s := s.withTurns ts) hi]; cases a <;> rfl
  · rw [reloading_of_inIsr hi, reloading_of_inIsr (s := s.withTurns ts) hi]; cases a <;> rfl

theorem reloaded_withTurns (s : State) (ts : List Turn) : s.reloaded.withTurns ts = (s.withTurns ts).reloaded := by
  by_cases hi : s.iseq = .idle
  · rw [reloaded_of_mainline hi, reloaded_of_mainline (s := s.withTurns ts) hi]; rfl
  · rw [reloaded_of_inIsr hi, reloaded_of_inIsr (s := s.withTurns ts) hi]; rfl

theorem withTurns_reloaded_withTurns (s : State) (ts ts' : List Turn) :
    (s.withTurns ts).reloaded.withTurns ts' = s.reloaded.withTurns ts' := by
  rw [reloaded_withTurns, reloaded_withTurns]; rfl

/-! ### Turns that find the inputs as the turns before left them -/

section
variable {s : State} {p : Pins}

/-- The inputs hold what a turn with the levels `p` latches. -/
def State.Latched (s : State) (p : Pins) : Prop := s.pins = { p with etNext := p.etNext % 2 ^ s.config.tickW }

theorem present_none (s : State) : s.present none = s := by
  rw [present_eq, present_port, Option.map_none, Option.or_none]

theorem latchPins_of_latched (h : s.Latched p) : s.latchPins p = s := by
  rw [State.latchPins, ← h]

/-- The turns of the agent whose sequencer runs the reload of `s`. -/
def State.RunsReload (s : State) (p : Pins) (turn : Turn) : Prop :=
  s.iseq = .idle ∧ turn = .mainline none p ∨ s.InIsr ∧ turn = .isr p

/-- A turn of that agent takes the micro-step of the position. -/
theorem runTurn_reloading {turn : Turn} (h : s.RunsReload p turn) (hp : s.Latched p) (a : ArmPos) :
    runTurn turn (s.reloading a) = (s.reloading a).armMicroStep a := by
  have hp' : (s.reloading a).Latched p := by simpa [State.reloading, State.Latched] using hp
  rcases h with ⟨hi, rfl⟩ | ⟨hi, rfl⟩
  · have hi' : (s.reloading a).iseq = .idle := by simp [reloading_of_mainline hi, hi]
    have hm' : (s.reloading a).mseq = .arm a := by rw [reloading_of_mainline hi]
    have hop : (s.reloading a).mseq.operation = some a.operation := by rw [hm']; rfl
    rw [runTurn, latchPins_of_latched hp', present_none, mainlineStep_of_operation hi' hop,
      exec_arm_operation (armPos_of_mainline hi' hm')]
  · have hi' : (s.reloading a).iseq = .arm a := by rw [reloading_of_inIsr hi]
    rw [runTurn, latchPins_of_latched hp', isrStep_of_pass hi' (by simp), ISeq.operation,
      exec_arm_operation (armPos_of_isr hi')]

/-- A turn at a position of the reload, with the turns after it. -/
theorem run_reloading_turn {turn : Turn} {a : ArmPos} {ts : List Turn} {t : State} (k : Nat) (hl : s.config.Legal)
    (h : s.RunsReload p turn) (hp : s.Latched p) (hts : s.turns = turn :: ts)
    (ht : ((s.withTurns ts).reloading a).armMicroStep a = .next t) :
    Host.Core.run core (k + 1) (s.reloading a) = Host.Core.run core k t := by
  have hl' : (s.reloading a).config.Legal := by simpa [State.reloading] using hl
  have hts' : (s.reloading a).turns = turn :: ts := by simpa [State.reloading] using hts
  refine run_turn k hl' hts' ?_
  change runTurn turn ((s.reloading a).withTurns ts) = _
  rw [reloading_withTurns, runTurn_reloading (s := s.withTurns ts) h hp, ht]

/-- The turns of the agent that runs the reload complete it, one for each position that is left. -/
theorem run_reloading {turn : Turn} {a : ArmPos} {ts : List Turn} (k : Nat) (hl : s.config.Legal)
    (h : s.RunsReload p turn) (hp : s.Latched p) (hready : s.pins.loadReady = true)
    (hts : s.turns = List.replicate a.left turn ++ ts) :
    Host.Core.run core (k + a.left) (s.reloading a) = Host.Core.run core k (s.reloaded.withTurns ts) := by
  generalize hn : a.left = n at *
  induction n generalizing s a with
  | zero => cases a <;> cases hn
  | succ n ih =>
    rw [List.replicate_succ, List.cons_append] at hts
    rw [← Nat.add_assoc]
    cases hnext : a.next with
    | some b =>
      have hb : b.left = n := Nat.succ.inj ((ArmPos.left_of_next hnext).symm.trans hn)
      rw [run_reloading_turn (k + n) hl h hp hts (reloading_step hnext hready),
        ih (s := s.withTurns (List.replicate n turn ++ ts)) hl h hp hready hb rfl, withTurns_reloaded_withTurns]
    | none =>
      obtain rfl := ArmPos.eq_a7_of_next hnext
      obtain rfl : n = 0 := Nat.succ.inj hn.symm
      rw [reloaded_withTurns]
      exact run_reloading_turn k hl h hp hts (reloading_last hready)

/-- A listed turn whose micro-step is known, once its inputs are latched. -/
theorem run_transition {turn : Turn} {ts : List Turn} {t : State} (k : Nat) (hl : s.config.Legal)
    (hts : s.turns = turn :: ts) (ht : Transition turn ((s.withTurns ts).latchTurn turn) t) :
    Host.Core.run core (k + 1) s = Host.Core.run core k t :=
  run_turn k hl hts (runTurn_of_transition ht)

/-- A turn of MAINLINE that offers nothing and finds its inputs latched. -/
theorem run_mainline {ts : List Turn} {t : State} (k : Nat) (hl : s.config.Legal) (hp : s.Latched p)
    (hts : s.turns = .mainline none p :: ts) (ht : Transition (.mainline none p) (s.withTurns ts) t) :
    Host.Core.run core (k + 1) s = Host.Core.run core k t := by
  refine run_transition k hl hts ?_
  rwa [State.latchTurn, present_none, latchPins_of_latched (s := s.withTurns ts) hp]

/-- A turn of ISR that finds its inputs latched. -/
theorem run_isr {ts : List Turn} {t : State} (k : Nat) (hl : s.config.Legal) (hp : s.Latched p)
    (hts : s.turns = .isr p :: ts) (ht : Transition (.isr p) (s.withTurns ts) t) :
    Host.Core.run core (k + 1) s = Host.Core.run core k t := by
  refine run_transition k hl hts ?_
  rwa [State.latchTurn, latchPins_of_latched (s := s.withTurns ts) hp]

/-! ### The two runs -/

/-- The first sample of 1 takes `CLOCK_INIT` to its reload (R90). -/
theorem pollOsc_of_ok (hi : s.iseq = .idle) (hosc : s.pins.oscOk = true) : s.pollOsc = s.reloading .a0 := by
  rw [State.pollOsc, if_pos hosc, reloading_of_mainline hi]; rfl

/-- `CLOCK_INIT` from M_OSC to its response: a poll, the reload, M_EN (R111). -/
theorem run_clockInit {ts : List Turn} (hl : s.config.Legal) (hi : s.iseq = .idle) (hm : s.mseq = .osc)
    (hp : s.Latched p) (hosc : s.pins.oscOk = true) (hready : s.pins.loadReady = true)
    (hts : s.turns = List.replicate 10 (.mainline none p) ++ ts) :
    Host.Core.run core 10 s = .next (initEnable (s.reloaded.withTurns ts)) := by
  have hreloaded := reloaded_of_mainline hi
  calc Host.Core.run core 10 s
      = Host.Core.run core 9 (s.withTurns (List.replicate 9 (.mainline none p) ++ ts)).pollOsc :=
        run_mainline 9 hl hp hts (.osc none p _ (by exact hi) (by exact hm))
    _ = Host.Core.run core 9 ((s.withTurns (List.replicate 9 (.mainline none p) ++ ts)).reloading .a0) :=
        congrArg _ (pollOsc_of_ok (by exact hi) (by exact hosc))
    _ = Host.Core.run core 1 ((s.withTurns _).reloaded.withTurns (.mainline none p :: ts)) :=
        run_reloading (a := .a0) 1 hl (.inl ⟨hi, rfl⟩) hp hready rfl
    _ = Host.Core.run core 1 (s.reloaded.withTurns (.mainline none p :: ts)) := by
        rw [withTurns_reloaded_withTurns]
    _ = .next (initEnable (s.reloaded.withTurns ts)) := by
        rw [hreloaded]; exact run_mainline 0 hl hp rfl (.enable none p _ hi rfl)

/-- A pass from I_INC to its return (R112). -/
theorem run_afterReload {ts : List Turn} (hl : s.config.Legal) (hi : s.iseq = .inc) (hp : s.Latched p)
    (hts : s.turns = List.replicate 4 (.isr p) ++ ts) :
    Host.Core.run core 4 s = .next { s with
      turns := ts, tickCounter := tickSucc s.config s.tickCounter, irqPending := false, iseq := .idle,
      history := s.history ++
        (if s.pins.etPending = true ∧ Expired s.config s.pins.etNext (tickSucc s.config s.tickCounter)
         then [.pollReq] else []) ++ [.irqRet] } := by
  refine Eq.trans (run_isr 3 hl hp hts (.inc p _ hi)) ?_
  refine Eq.trans (run_isr 2 (by exact hl) (by exact hp) rfl (.chk p _ rfl)) ?_
  rw [tickCheck_eq]
  refine Eq.trans (run_isr 1 (by exact hl) (by exact hp) rfl (.clr p _ rfl)) ?_
  exact run_isr 0 (by exact hl) (by exact hp) rfl (.ret p _ rfl)

/-- A pass enters at the first position of its reload. -/
theorem reloading_of_entered (hi : s.iseq = .arm .a0) : s.reloading .a0 = s := by
  rw [reloading_of_inIsr (by simp [State.InIsr, hi]), ← hi]; rfl

end

/-- Settles O21: acceptance leads to M_OSC, and the rest runs from there. -/
theorem clockInitRunsToItsResponse : Obligations.ClockInitRunsToItsResponse := by
  intro s cw p ts hl ⟨hm, hi⟩ hph hport hcw hosc hready hts v
  have hcode : s.config.cmdOp cw = 0 := by rw [Config.cmdOp, Nat.div_eq_of_lt hcw]
  have harg : s.config.cmdArg cw = cw := Nat.mod_eq_of_lt hcw
  have haccept : Host.Core.run core 11 s = Host.Core.run core 10
      ((((s.withTurns (List.replicate 10 (.mainline none p) ++ ts)).latchPins p).accept cw).requestOsc) := by
    refine run_transition 10 hl hts ?_
    rw [State.latchTurn, present_none]
    exact .acceptInit none p _ cw hi hm hport (decodeCommand_of_code_zero hcw) hph
  refine haccept.trans (Eq.trans (run_clockInit (p := p) (ts := ts) hl hi rfl rfl hosc hready rfl) ?_)
  rw [reloaded_of_mainline (by exact hi)]
  simp [initEnable, State.respond, State.withTurns, State.reloadRegs, State.nextCompare, hcode, harg, intervalWord,
    v, hm]

/-- Settles O25: entry leads to the reload, and the rest runs from I_INC. -/
theorem passRunsToItsReturn : Obligations.PassRunsToItsReturn := by
  intro s p ts hl he hready hts v now n
  have hentry : Host.Core.run core 13 s = Host.Core.run core 12
      ((s.withTurns (List.replicate 12 (.isr p) ++ ts)).latchPins p).interruptEntry :=
    run_transition 12 hl hts (.entry p _ he)
  rw [hentry, ← reloading_of_entered (s := State.interruptEntry _) rfl]
  refine Eq.trans (run_reloading (p := p) (a := .a0) (ts := List.replicate 4 (.isr p) ++ ts) 4 hl
    (.inr ⟨by simp, rfl⟩) rfl hready rfl) ?_
  rw [reloaded_of_inIsr (by simp)]
  refine Eq.trans (run_afterReload (ts := ts) hl rfl rfl rfl) ?_
  obtain ⟨-, -, hi⟩ := he
  simp [State.withTurns, State.reloadRegs, State.nextCompare, tickSucc, addMod, now, v, n, intervalWord, hi, Expired]

end Sys2Proof.Machine
end

section
/-! ## The timer interrupt: the COUNTER step, entry, return, and the four waits (spec/60_exceptions.md) -/

namespace Sys2Proof.Machine

/-! ### The COUNTER step (R142) -/

/-- The COUNTER step, with its test for a match on arrival written out. -/
theorem counterStep_eq (s : State) : s.counterStep =
    if s.armed = true ∧ s.rawCounter + 1 = s.cmp
    then { s with rawCounter := s.rawCounter + 1, irqPending := true, armed := false,
                  history := s.history ++ [.matched] }
    else { s with rawCounter := s.rawCounter + 1 } := rfl

/-- Settles O35: COUNTER's turn is the COUNTER step, and taking the turn touches nothing the step reads. -/
theorem counterStepMatchesOnArrival : Obligations.CounterStepMatchesOnArrival := by
  intro s hl hturn s₀
  have hstep : step s = .next s₀.counterStep := step_of_turn hl hturn
  have h₀ : s₀ = { s with turns := s₀.turns, turnNo := s₀.turnNo } := takeTurn_eq s
  have harm : s₀.armed = s.armed := (congrArg State.armed h₀ :)
  have hraw : s₀.rawCounter = s.rawCounter := (congrArg State.rawCounter h₀ :)
  have hcmp : s₀.cmp = s.cmp := (congrArg State.cmp h₀ :)
  have hhist : s₀.history = s.history := (congrArg State.history h₀ :)
  rw [hstep, counterStep_eq, harm, hraw, hcmp, hhist]

/-- Settles O37: with ARMED 0 no arrival matches. -/
theorem disarmedNeverFires : Obligations.DisarmedNeverFires := by
  intro s k hdisarmed
  refine iterate_counterStep_of_no_match fun i _ ⟨harm, _⟩ => ?_
  exact Bool.false_ne_true (hdisarmed.symm.trans harm)

/-! ### Entry, the clear and the return (R112, R144, R145) -/

section
variable {s : State}

theorem exec_tickIsr_of_idle (hi : s.iseq = .idle) :
    exec .tickIsr s = if s.EntryEnabled then .next s.interruptEntry else .refused (.notInProgress 0x7) := by
  simp only [exec, execTickIsr, hi]

theorem exec_tickIsr_of_clr (hi : s.iseq = .clr) : exec .tickIsr s = .next (tickClear s) := by
  obtain ⟨-, -, hclr⟩ := tickIsrSteps s
  exact hclr hi

theorem exec_tickIsr_of_ret (hi : s.iseq = .ret) : exec .tickIsr s = .next s.interruptReturn := by
  simp only [exec, execTickIsr, hi]

end

/-- Settles O22: at I_IDLE entry is enabled by the two bits alone. -/
theorem interruptEntryChangesOnlyIseq : Obligations.InterruptEntryChangesOnlyIseq := by
  intro s hi
  rw [exec_tickIsr_of_idle hi]
  by_cases h : s.irqPending = true ∧ s.irqEnable = true
  · obtain ⟨hpend, hen⟩ := id h
    have he : s.EntryEnabled := ⟨hpend, hen, hi⟩
    rw [if_pos he, if_pos h]; rfl
  · have he : ¬s.EntryEnabled := fun ⟨hpend, hen, _⟩ => h ⟨hpend, hen⟩
    rw [if_neg he, if_neg h]

/-- Settles O24: the return leaves the bits and the mainline's position as they are, outside a pass. -/
theorem interruptReturnChangesOnlyIseq : Obligations.InterruptReturnChangesOnlyIseq := fun _ hi =>
  ⟨_, exec_tickIsr_of_ret hi, rfl, fun hpend hen => ⟨hpend, hen, rfl⟩, fun _ hop => mainlineStep_of_operation rfl hop⟩

/-- Settles O38: I_CLR wipes the match that came before it, and nothing wipes the one that comes after. -/
theorem matchAgainstClear : Obligations.MatchAgainstClear := by
  intro s hi hph hm harm harrive
  have hmatch : Matches s.armed (counterSucc s.rawCounter) s.cmp := ⟨harm, harrive⟩
  constructor
  · have hclr : s.counterStep.iseq = .clr := by simpa using hi
    refine ⟨_, _, exec_tickIsr_of_clr hclr, exec_tickIsr_of_ret rfl, ?_⟩
    rw [counterStep_of_match s hmatch]
    exact ⟨hph, hm, rfl, rfl, rfl⟩
  · have hret : (tickClear s).counterStep.iseq = .ret := by simp
    refine ⟨_, _, exec_tickIsr_of_clr hi, exec_tickIsr_of_ret hret, ?_⟩
    rw [counterStep_of_match (tickClear s) hmatch]
    exact ⟨rfl, rfl, rfl⟩

/-! ### The waits (R141) -/

/-- A step is a micro-step of the agent whose turn it is, and it samples what the turn supplies. -/
theorem step_transition_sampling {s t : State} (h : step s = .next t) : ∃ pins port turns n,
    Transition s.nextTurn { s with pins := pins, port := port, turns := turns, turnNo := n } t ∧
    (∀ o p, s.nextTurn = .mainline o p → pins.oscOk = p.oscOk ∧ pins.loadReady = p.loadReady) ∧
    (∀ p, s.nextTurn = .isr p → pins.loadReady = p.loadReady) := by
  obtain ⟨-, s₀, hlatch, hs₀, htrans⟩ := step_cases h
  refine ⟨s₀.pins, s₀.port, s₀.turns, s₀.turnNo, hs₀ ▸ htrans, fun o p hturn => ?_, fun p hturn => ?_⟩
  · rw [hlatch, hturn]; simp [State.latchTurn]
  · rw [hlatch, hturn]; simp [State.latchTurn]

/-- Before `CLOCK_INIT` has completed the interrupt is disabled (R111). -/
theorem State.Coherent.disabled {s : State} (h : s.Coherent) (hp : s.phase = .uninitialized) :
    s.irqEnable = false := by
  obtain ⟨hen, -⟩ := h
  simpa [hp] using hen

/-- No COUNTER step withdraws the interrupt (R142). -/
theorem counterStep_irqPending_of_pending {s : State} (h : s.irqPending = true) : s.counterStep.irqPending = true := by
  rcases counterStep_match_cases s with ⟨-, -, hpend, -⟩ | ⟨hpend, -⟩
  · exact hpend
  · exact hpend.trans h

section
variable {turn : Turn} {s t : State}

/-- A turn of MAINLINE outside a pass runs the operation in progress (R31). -/
theorem exec_of_transition_mainline {o : Option Nat} {p : Pins} {i : Instr} (ht : Transition (.mainline o p) s t)
    (hi : s.iseq = .idle) (hop : s.mseq.operation = some i) : exec i s = .next t := by
  rw [← mainlineStep_of_operation hi hop, mainlineStep_of_transition ht]

/-- At A4 a sample of 0 is a wait, on either sequencer (R92). -/
theorem eq_of_exec_a4 (hpos : s.armPos = some .a4) (hzero : s.pins.loadReady = false)
    (h : exec ArmPos.a4.operation s = .next t) : t = s := by
  rw [exec_arm_operation hpos] at h
  simpa [hzero] using h.symm

theorem mainline_waits_at_osc {o : Option Nat} {p : Pins} (ht : Transition (.mainline o p) s t) (hi : s.iseq = .idle)
    (hm : s.mseq = .osc) (hzero : s.pins.oscOk = false) : t = s := by
  have h := exec_of_transition_mainline ht hi (i := .initClockSource) (by rw [hm]; rfl)
  obtain ⟨-, -, hwait⟩ := initClockSourceSteps s hi
  rw [hwait hm hzero] at h
  exact (Host.Outcome.next.inj h).symm

theorem mainline_waits_at_a4 {o : Option Nat} {p : Pins} (ht : Transition (.mainline o p) s t) (hi : s.iseq = .idle)
    (hm : s.mseq = .arm .a4) (hzero : s.pins.loadReady = false) : t = s :=
  eq_of_exec_a4 (armPos_of_mainline hi hm) hzero (exec_of_transition_mainline ht hi (by rw [hm]; rfl))

theorem isr_waits_at_a4 {p : Pins} (ht : Transition (.isr p) s t) (hi : s.iseq = .arm .a4)
    (hzero : s.pins.loadReady = false) : t = s :=
  eq_of_exec_a4 (armPos_of_isr hi) hzero
    ((isrStep_of_pass hi (by simp)).symm.trans (isrStep_of_transition ht))

/-- Outside a pass ISR has no step while the interrupt is disabled (R144). -/
theorem isr_waits_of_disabled {p : Pins} (ht : Transition (.isr p) s t) (hi : s.iseq = .idle)
    (hen : s.irqEnable = false) : t = s := by
  have h := isrStep_of_transition ht
  simpa [isrStep_of_idle hi, hen] using h.symm

/-- But for a reset, where neither sequencer's turn changes anything only the counter moves. -/
theorem transition_of_waiting (ht : Transition turn s t) (hr : ∀ f, turn ≠ .reset f)
    (hmain : ∀ o p, turn = .mainline o p → t = s) (hisr : ∀ p, turn = .isr p → t = s) : t = s ∨ t = s.counterStep := by
  cases turn with
  | counter => cases ht; exact .inr rfl
  | mainline o p => exact .inl (hmain o p rfl)
  | isr p => exact .inl (hisr p rfl)
  | reset f => exact absurd rfl (hr f)

/-- `CLOCK_INIT` stays where its micro-step waits: no interrupt can come, and COUNTER moves no sequencer. -/
theorem clockInit_hangs (ht : Transition turn s t) (hr : ∀ f, turn ≠ .reset f) (hc : s.Coherent) (hi : s.iseq = .idle)
    (hidle : s.mseq ≠ .idle) (hpoll : s.mseq ≠ .poll) (hmain : ∀ o p, turn = .mainline o p → t = s) :
    t.mseq = s.mseq ∧ t.phase = .uninitialized ∧ t.irqEnable = false ∧ t.iseq = .idle ∧ t.newcmp = s.newcmp := by
  have hph := hc.uninitialized hidle hpoll
  have hen := hc.disabled hph
  have hisr (p : Pins) (hturn : turn = .isr p) : t = s := isr_waits_of_disabled (hturn ▸ ht) hi hen
  rcases transition_of_waiting ht hr hmain hisr with rfl | rfl <;> simp [hph, hen, hi]

/-- The wait for the clock source. -/
theorem osc_hangs (ht : Transition turn s t) (hr : ∀ f, turn ≠ .reset f) (hc : s.Coherent) (hi : s.iseq = .idle)
    (hm : s.mseq = .osc) (hzero : ∀ o p, turn = .mainline o p → s.pins.oscOk = false) :
    t.mseq = .osc ∧ t.phase = .uninitialized ∧ t.irqEnable = false ∧ t.iseq = .idle := by
  have hmain (o : Option Nat) (p : Pins) (hturn : turn = .mainline o p) : t = s :=
    mainline_waits_at_osc (hturn ▸ ht) hi hm (hzero o p hturn)
  obtain ⟨hm', hph, hen, hi', -⟩ := clockInit_hangs ht hr hc hi (by simp [hm]) (by simp [hm]) hmain
  exact ⟨hm'.trans hm, hph, hen, hi'⟩

/-- The wait for `LOAD_READY` in `CLOCK_INIT`. -/
theorem clockInit_hangs_at_a4 (ht : Transition turn s t) (hr : ∀ f, turn ≠ .reset f) (hc : s.Coherent)
    (hi : s.iseq = .idle) (hm : s.mseq = .arm .a4) (hzero : ∀ o p, turn = .mainline o p → s.pins.loadReady = false) :
    t.mseq = .arm .a4 ∧ t.phase = .uninitialized ∧ t.irqEnable = false ∧ t.iseq = .idle ∧ t.newcmp = s.newcmp := by
  have hmain (o : Option Nat) (p : Pins) (hturn : turn = .mainline o p) : t = s :=
    mainline_waits_at_a4 (hturn ▸ ht) hi hm (hzero o p hturn)
  rw [← hm]
  exact clockInit_hangs ht hr hc hi (by simp [hm]) (by simp [hm]) hmain

/-- The wait for `LOAD_READY` in a pass: the mainline is frozen, and COUNTER moves no sequencer. -/
theorem pass_hangs_at_a4 (ht : Transition turn s t) (hr : ∀ f, turn ≠ .reset f) (hi : s.iseq = .arm .a4)
    (hpend : s.irqPending = true) (hzero : ∀ p, turn = .isr p → s.pins.loadReady = false) :
    t.iseq = .arm .a4 ∧ t.mseq = s.mseq ∧ t.tickCounter = s.tickCounter ∧ t.irqPending = true ∧
      t.newcmp = s.newcmp := by
  have hmain (o : Option Nat) (p : Pins) (hturn : turn = .mainline o p) : t = s :=
    transition_mainline_frozen (hturn ▸ ht) (by simp [hi])
  have hisr (p : Pins) (hturn : turn = .isr p) : t = s := isr_waits_at_a4 (hturn ▸ ht) hi (hzero p hturn)
  rcases transition_of_waiting ht hr hmain hisr with rfl | rfl
  · simp [hi, hpend]
  · simp [hi, counterStep_irqPending_of_pending hpend]

/-- The wait of a delay that is not complete. -/
theorem delay_hangs (ht : Transition turn s t) (hr : ∀ f, turn ≠ .reset f) (hm : s.mseq = .poll) (hwait : ¬s.DelayDone) :
    t.mseq = .poll ∧ t.dlyStart = s.dlyStart ∧ t.dlyTicks = s.dlyTicks := by
  obtain ⟨hstart, hticks, hpoll | ⟨-, -, hdone, -⟩⟩ := transition_poll ht hm hr
  · exact ⟨hpoll, hstart, hticks⟩
  · exact absurd hdone hwait

end

/-- Settles O52: the sample of 0, or the elapsed count, makes the position's micro-step a wait, and no other agent ends
it. -/
theorem hangsPersistWhileTheSampleIsZero : Obligations.HangsPersistWhileTheSampleIsZero := by
  intro s t hc hstep hr
  obtain ⟨pins, port, turns, n, htrans, hsample, hsampleIsr⟩ := step_transition_sampling hstep
  refine ⟨fun hm hi hzero => ?_, fun hm hi hzero => ?_, fun hi hpend hzero => ?_, fun hm hwait => ?_⟩
  · exact (osc_hangs htrans hr hc hi hm fun o p h => (hsample o p h).1.trans (hzero o p h) :)
  · exact (clockInit_hangs_at_a4 htrans hr hc hi hm fun o p h => (hsample o p h).2.trans (hzero o p h) :)
  · exact (pass_hangs_at_a4 htrans hr hi hpend fun p h => (hsampleIsr p h).trans (hzero p h) :)
  · exact (delay_hangs htrans hr hm (Nat.not_le.2 hwait) :)

end Sys2Proof.Machine
end

section
/-! ## The dead timer, and what a reset gives (spec/70_reset_and_hazards.md R170, R171, R174) -/

namespace Sys2Proof.Machine

/-! ### The dead timer (R174) -/

/-- No agent but RESET has a micro-step that revives a dead timer: no arrival matches a disarmed comparator, no pass
begins without a pending interrupt, and in the phase Running MAINLINE runs no reload. -/
theorem transition_keeps_timerDead {turn : Turn} {s t : State} (ht : Transition turn s t)
    (hr : ∀ f, turn ≠ .reset f) (hs : s.TimerDead) : t.TimerDead ∧ t.tickCounter = s.tickCounter := by
  have ⟨hph, hm, hi, harm, hpend⟩ := hs
  cases ht with
  | reset f => exact absurd rfl (hr f)
  | counter =>
    have hno : ¬Matches s.armed (counterSucc s.rawCounter) s.cmp := fun ⟨h, _⟩ => by simp [harm] at h
    rw [counterStep_of_no_match s hno]
    exact ⟨hs, rfl⟩
  | idle => exact ⟨hs, rfl⟩
  | noEntry => exact ⟨hs, rfl⟩
  | acceptTime => exact ⟨⟨hph, .inl rfl, hi, harm, hpend⟩, rfl⟩
  | acceptSeconds => exact ⟨⟨hph, .inl rfl, hi, harm, hpend⟩, rfl⟩
  | acceptDelay => exact ⟨⟨hph, .inr rfl, hi, harm, hpend⟩, rfl⟩
  | poll =>
    rcases delayPoll_cases s with ⟨-, h⟩ | ⟨-, h⟩ <;> rw [h]
    · exact ⟨⟨hph, .inl rfl, hi, harm, hpend⟩, rfl⟩
    · exact ⟨hs, rfl⟩
  | acceptInit _ _ _ _ _ _ _ _ hun => simp [hph] at hun
  | osc _ _ _ _ hosc => simp [hosc] at hm
  | mainlineArm _ _ _ _ _ _ hrel => simp [hrel] at hm
  | enable _ _ _ _ hen => simp [hen] at hm
  | entry _ _ he => simp [State.EntryEnabled, hpend] at he
  | isrArm _ _ _ _ h => simp [hi] at h
  | inc _ _ h => simp [hi] at h
  | chk _ _ h => simp [hi] at h
  | clr _ _ h => simp [hi] at h
  | ret _ _ h => simp [hi] at h

/-- Settles O39: every turn but a RESET is that of an agent, and none of them revives the timer or counts a tick. -/
theorem deadTimerStaysDead : Obligations.DeadTimerStaysDead := by
  intro s t hs hstep
  by_cases hr : ∃ f, s.nextTurn = .reset f
  · exact .inl hr
  · obtain ⟨pins, turns, n, htrans⟩ := step_transition hstep
    exact .inr (transition_keeps_timerDead htrans (not_exists.1 hr) hs :)

/-! ### The state after a reset (R170, R171) -/

/-- Settles O40: R171 states these eight values, and the state after reset is written with them. -/
theorem resetStateHasTheStatedValues : Obligations.ResetStateHasTheStatedValues :=
  ⟨rfl, rfl, rfl, rfl, rfl, rfl, rfl, rfl⟩

/-- Settles O41: a RESET turn is `State.takeReset`, and taking the turn leaves the configuration and the history. -/
theorem resetEventTakesEveryElement : Obligations.ResetEventTakesEveryElement := by
  intro s f hl hturn s₀
  have hstep : step s = .next (s₀.takeReset f) := step_of_turn hl hturn
  have h₀ : s₀ = { s with turns := s₀.turns, turnNo := s₀.turnNo } := takeTurn_eq s
  have hconfig : s.config = s₀.config := (congrArg State.config h₀ :).symm
  have hhist : s.history = s₀.history := (congrArg State.history h₀ :).symm
  rw [hstep, hconfig, hhist]
  rfl

theorem reset_armPos : State.reset.armPos = none := rfl

/-- Settles O53: every register is 0, both sequencers are idle before the first adoption, and the history is empty. -/
theorem resetStateIsSafe : Obligations.ResetStateIsSafe := by
  refine ⟨by decide, by decide, by decide, ?_, ?_, ?_, ?_⟩
  · exact (oneShot_of_beforeAdoption rfl rfl (by decide)).2 ⟨rfl, rfl⟩
  · exact reloadKept_of_none reset_armPos (by decide)
  · rfl
  · intro hpoll; cases hpoll

end Sys2Proof.Machine
end

section
/-! ## No behaviour depends on an unspecified reset value (R171)

Two states that differ only in the registers whose reset value is unspecified take the same micro-steps, as long as those
registers agree where a micro-step reads them (`State.ReadsAlike`): `CMP` while the comparator is armed, `DLY_START` and
`DLY_TICKS` while CLOCK_DELAY polls, and the registers of the reload from its first position on, which writes them before
it reads them. Every micro-step of a coherent machine keeps that, and right after a reset none of them is read. -/

namespace Sys2Proof.Machine

/-- What the state holds in the registers of unspecified reset value. -/
def State.unspecified (s : State) : ResetFill where
  snap := s.snap
  newcmp := s.newcmp
  dlyStart := s.dlyStart
  dlyTicks := s.dlyTicks
  cntLatch := s.cntLatch
  cmp := s.cmp
  cmpHold := s.cmpHold

/-- The same state with other contents in the registers of unspecified reset value. -/
def State.refill (s : State) (f : ResetFill) : State :=
  { s with snap := f.snap, newcmp := f.newcmp, dlyStart := f.dlyStart, dlyTicks := f.dlyTicks,
           cntLatch := f.cntLatch, cmp := f.cmp, cmpHold := f.cmpHold }

/-- The contents `f` agree with those of the state wherever a micro-step reads them: with a reload in progress, both are
those of a reload of the same counter value. -/
structure State.ReadsAlike (s : State) (f : ResetFill) : Prop where
  reload : ∀ a, s.armPos = some a → ∃ v, s.ReloadAt v a ∧ (s.refill f).ReloadAt v a
  compare : s.armed = true → f.cmp = s.cmp
  delay : s.mseq = .poll → f.dlyStart = s.dlyStart ∧ f.dlyTicks = s.dlyTicks

/-! ### The operations on refilled states -/

section

variable (s : State) (f : ResetFill)

/-- After two resets only the unspecified registers differ. -/
theorem takeReset_eq_refill (g : ResetFill) :
    s.takeReset g = (s.takeReset f).refill (s.takeReset g).unspecified := rfl

theorem takeTurn_refill : (s.refill f).takeTurn = (s.takeTurn.1, s.takeTurn.2.refill f) := by
  rcases takeTurn_cases s with ⟨t, ts, hs, h⟩ | ⟨hs, h⟩
  · rw [h]; exact takeTurn_cons _ hs
  · rw [h]; simp [State.takeTurn, State.refill, hs]

theorem present_refill (o : Option Nat) : (s.refill f).present o = (s.present o).refill f := by
  rw [present_eq, present_eq s, present_port, present_port]; rfl

theorem latchTurn_refill (t : Turn) : (s.refill f).latchTurn t = (s.latchTurn t).refill f := by
  cases t with
  | mainline o p => exact present_refill (s.latchPins p) f o
  | _ => rfl

theorem gotoArm_refill (a : ArmPos) : (s.refill f).gotoArm a = (s.gotoArm a).refill f := by
  by_cases hi : s.iseq = .idle
  · rw [gotoArm_of_mainline s hi, gotoArm_of_mainline _ (by exact hi)]; rfl
  · rw [gotoArm_of_inIsr s hi, gotoArm_of_inIsr _ (by exact hi)]; rfl

theorem leaveArm_refill : (s.refill f).leaveArm = s.leaveArm.refill f := by
  by_cases hi : s.iseq = .idle
  · rw [leaveArm_of_mainline s hi, leaveArm_of_mainline _ (by exact hi)]; rfl
  · rw [leaveArm_of_inIsr s hi, leaveArm_of_inIsr _ (by exact hi)]; rfl

theorem pollOsc_refill : (s.refill f).pollOsc = s.pollOsc.refill f := by
  unfold State.pollOsc; rw [apply_ite (State.refill · f)]; rfl

theorem tickCheck_refill : tickCheck (s.refill f) = (tickCheck s).refill f := by
  rw [tickCheck_eq, tickCheck_eq s]; rfl

end

/-- COUNTER reads `CMP` only while the comparator is armed. -/
theorem counterStep_refill {s : State} {f : ResetFill} (h : s.armed = true → f.cmp = s.cmp) :
    (s.refill f).counterStep = s.counterStep.refill f := by
  have hiff : Matches s.armed (counterSucc s.rawCounter) f.cmp ↔ Matches s.armed (counterSucc s.rawCounter) s.cmp :=
    and_congr_right fun harm => by rw [h harm]
  by_cases hm : Matches s.armed (counterSucc s.rawCounter) s.cmp
  · rw [counterStep_of_match s hm, counterStep_of_match (s.refill f) (hiff.2 hm)]; rfl
  · rw [counterStep_of_no_match s hm, counterStep_of_no_match (s.refill f) (mt hiff.1 hm)]; rfl

theorem delayPoll_refill {s : State} {f : ResetFill} (h : f.dlyStart = s.dlyStart ∧ f.dlyTicks = s.dlyTicks) :
    delayPoll (s.refill f) = (delayPoll s).refill f := by
  obtain ⟨hstart, hticks⟩ := h
  have hiff : (s.refill f).DelayDone ↔ s.DelayDone := by simp [State.DelayDone, State.refill, hstart, hticks]
  unfold delayPoll
  rw [apply_ite (State.refill · f)]
  exact if_congr hiff rfl rfl

/-! ### The micro-steps of the reload on refilled states (R91, R92) -/

theorem gotoArm_unspecified (s : State) (a : ArmPos) : (s.gotoArm a).unspecified = s.unspecified := by
  simp [State.unspecified]

theorem leaveArm_unspecified (s : State) : s.leaveArm.unspecified = s.unspecified := by
  simp [State.unspecified]

theorem gotoArm_eq_refill {s t : State} (h : t = s.refill t.unspecified) (a : ArmPos) :
    t.gotoArm a = (s.gotoArm a).refill (t.gotoArm a).unspecified := by
  rw [gotoArm_unspecified, ← gotoArm_refill, ← h]

theorem leaveArm_eq_refill {s t : State} (h : t = s.refill t.unspecified) :
    t.leaveArm = s.leaveArm.refill t.leaveArm.unspecified := by
  rw [leaveArm_unspecified, ← leaveArm_refill, ← h]

/-- The value A7 adopts is the one computed at A3 (R92). -/
theorem adoptedValue_of_reloadAt {s : State} {v : Word24} (h : s.ReloadAt v .a7) :
    adoptedValue s.cmpHold (lowByte s.newcmp) = v + intervalWord s.config := by
  obtain ⟨-, hnew, hhold⟩ := h
  rw [hhold, adoptedValue_upperHalf, hnew]

section

variable {s t t' : State} {f : ResetFill} {a : ArmPos} {v : Word24}

/-- Two reloads of the same counter value differ only in the unspecified registers, also in the event of A7. -/
theorem armMicroStep_refill (hs : s.ReloadAt v a) (hf : (s.refill f).ReloadAt v a) (h : s.armMicroStep a = .next t)
    (h' : (s.refill f).armMicroStep a = .next t') : t' = t.refill t'.unspecified := by
  cases a with
  | a4 =>
    cases hready : s.pins.loadReady with
    | true =>
      cases (armMicroStep_a4_of_ready hready).symm.trans h
      cases (armMicroStep_a4_of_ready (s := s.refill f) hready).symm.trans h'
      exact gotoArm_eq_refill rfl .a5
    | false =>
      cases (armMicroStep_a4_of_notReady hready).symm.trans h
      cases (armMicroStep_a4_of_notReady (s := s.refill f) hready).symm.trans h'
      rfl
  | a7 =>
    cases h
    cases h'
    refine leaveArm_eq_refill ?_
    rw [adoptedValue_of_reloadAt hs, adoptedValue_of_reloadAt hf]
    rfl
  | _ => cases h; cases h'; exact gotoArm_eq_refill rfl _

/-- Two reloads of the same counter value are at the next position reloads of the same value, or are over, or wait. -/
theorem armMicroStep_reloadAt (hpos : s.armPos = some a) (hs : s.ReloadAt v a) (hf : (s.refill f).ReloadAt v a)
    (h : s.armMicroStep a = .next t) (h' : (s.refill f).armMicroStep a = .next t') :
    ∀ b, t.armPos = some b → t.ReloadAt v b ∧ t'.ReloadAt v b := by
  intro b hb
  by_cases hwait : a = .a4 ∧ s.pins.loadReady = false
  · obtain ⟨rfl, hzero⟩ := hwait
    cases (armMicroStep_a4_of_notReady hzero).symm.trans h
    cases (armMicroStep_a4_of_notReady (s := s.refill f) hzero).symm.trans h'
    cases hpos.symm.trans hb
    exact ⟨hs, hf⟩
  · have hready : a = .a4 → s.pins.loadReady = true := by simpa using hwait
    cases hnext : a.next with
    | none =>
      obtain rfl := ArmPos.eq_a7_of_next hnext
      obtain ⟨hnone, -⟩ := armMicroStep_adopts hs h
      cases hnone.symm.trans hb
    | some c =>
      obtain ⟨u, hu, hc, hat⟩ := armMicroStep_advances hnext hready hs
      obtain ⟨u', hu', -, hat'⟩ := armMicroStep_advances (s := s.refill f) hnext hready hf
      cases hu.symm.trans h
      cases hu'.symm.trans h'
      cases hc.symm.trans hb
      exact ⟨hat, hat'⟩

/-- If the comparator is armed after a micro-step of the reload, either A7 has adopted or it was armed before. -/
theorem armMicroStep_compare (hs : s.ReloadAt v a) (hf : (s.refill f).ReloadAt v a)
    (hcmp : s.armed = true → f.cmp = s.cmp) (h : s.armMicroStep a = .next t)
    (h' : (s.refill f).armMicroStep a = .next t') (harmed : t.armed = true) : t'.cmp = t.cmp := by
  rcases armMicroStep_adoption h with ⟨rfl, hadopt, -⟩ | ⟨ha, hkept, harm, -⟩
  · rcases armMicroStep_adoption h' with ⟨-, hadopt', -⟩ | ⟨ha, -⟩
    · rw [hadopt, hadopt', adoptedValue_of_reloadAt hs, adoptedValue_of_reloadAt hf]; rfl
    · exact absurd rfl ha
  · rcases armMicroStep_adoption h' with ⟨ha', -⟩ | ⟨-, hkept', -⟩
    · exact absurd ha' ha
    · rw [hkept, hkept']; exact hcmp (harm.symm.trans harmed)

/-- No micro-step of the reload starts the polls of CLOCK_DELAY. -/
theorem armMicroStep_poll (hpos : s.armPos = some a) (h : s.armMicroStep a = .next t) (hm : t.mseq = .poll) :
    s.mseq = .poll := by
  rcases armPos_cases hpos with ⟨hi, harm⟩ | hi
  · rcases (armMicroStep_position_of_mainline hi harm h).2 with ⟨-, h'⟩ | ⟨-, b, h'⟩ <;> simp [h'] at hm
  · exact (armMicroStep_position_of_isr hi h).1.symm.trans hm

/-- A micro-step of the reload keeps the agreement. -/
theorem armMicroStep_keeps_readsAlike (hpos : s.armPos = some a) (hr : s.ReadsAlike f)
    (h : s.armMicroStep a = .next t) :
    ∃ g, (s.refill f).armMicroStep a = .next (t.refill g) ∧ t.ReadsAlike g := by
  obtain ⟨v, hs, hf⟩ := hr.reload a hpos
  obtain ⟨t', h'⟩ := armMicroStep_next (s.refill f) a
  have heq : t' = t.refill t'.unspecified := armMicroStep_refill hs hf h h'
  refine ⟨t'.unspecified, heq ▸ h', ?_, fun harmed => armMicroStep_compare hs hf hr.compare h h' harmed, fun hm => ?_⟩
  · rw [← heq]
    exact fun b hb => ⟨v, armMicroStep_reloadAt hpos hs hf h h' b hb⟩
  · obtain ⟨hstart, hticks⟩ := hr.delay (armMicroStep_poll hpos h hm)
    have hframe := armMicroStep_frame h
    have hframe' := armMicroStep_frame h'
    exact ⟨hframe'.dlyStart.trans (hstart.trans hframe.dlyStart.symm),
      hframe'.dlyTicks.trans (hticks.trans hframe.dlyTicks.symm)⟩

end

/-! ### Every micro-step keeps the agreement -/

section

variable {s t : State} {f : ResetFill}

/-- Outside a reload, and at A0, which reads none of these registers, the comparator and the delay are what counts. -/
theorem readsAlike_outside (hr : s.ReadsAlike f) (hpos : t.armPos = none ∨ t.armPos = some .a0)
    (harm : t.armed = s.armed) (hcmp : t.cmp = s.cmp)
    (hpoll : t.mseq = .poll → s.mseq = .poll ∧ t.dlyStart = s.dlyStart ∧ t.dlyTicks = s.dlyTicks) : t.ReadsAlike f where
  reload a ha := by
    rcases hpos with hpos | hpos
    · cases hpos.symm.trans ha
    · cases hpos.symm.trans ha
      exact ⟨t.rawCounter, rfl, rfl⟩
  compare h := (hr.compare (harm.symm.trans h)).trans hcmp.symm
  delay hm := by
    obtain ⟨hm', hstart, hticks⟩ := hpoll hm
    rw [hstart, hticks]
    exact hr.delay hm'

/-- Where no reload is in progress, the comparator is disarmed and no delay polls, nothing is read. -/
theorem readsAlike_of_unread (hpos : t.armPos = none) (harm : t.armed = false) (hm : t.mseq ≠ .poll) (g : ResetFill) :
    t.ReadsAlike g where
  reload a ha := by simp [hpos] at ha
  compare h := by simp [harm] at h
  delay h := absurd h hm

theorem counterStep_keeps_readsAlike (hr : s.ReadsAlike f) : s.counterStep.ReadsAlike f where
  reload a ha := by
    by_cases h0 : a = .a0
    · subst h0
      exact ⟨s.counterStep.rawCounter, rfl, rfl⟩
    · obtain ⟨v, hs, hf⟩ := hr.reload a (by simpa using ha)
      rw [← counterStep_refill hr.compare]
      exact ⟨v, hs.iterate_counterStep h0 1, hf.iterate_counterStep h0 1⟩
  compare h := by
    rcases counterStep_match_cases s with ⟨-, -, -, harm⟩ | ⟨-, harm⟩
    · simp [harm] at h
    · simpa using hr.compare (harm.symm.trans h)
  delay hm := by simpa using hr.delay (by simpa using hm)

/-- A micro-step of a coherent machine is also one of the machine with other contents in its unspecified registers, and
afterwards the two agree again wherever a micro-step reads them. -/
theorem transition_refill {turn : Turn} (ht : Transition turn s t) (hc : s.Coherent) (hr : s.ReadsAlike f) :
    ∃ g, Transition turn (s.refill f) (t.refill g) ∧ t.ReadsAlike g := by
  cases ht with
  | counter =>
    exact ⟨f, counterStep_refill hr.compare ▸ .counter (s.refill f), counterStep_keeps_readsAlike hr⟩
  | reset g =>
    exact ⟨(s.takeReset g).unspecified, .reset g (s.refill f), readsAlike_of_unread rfl rfl (by simp) _⟩
  | idle o p _ h => exact ⟨f, .idle o p (s.refill f) h, hr⟩
  | noEntry p _ hi h => exact ⟨f, .noEntry p (s.refill f) hi h, hr⟩
  | acceptInit o p _ cw hi hm hp hd hph =>
    exact ⟨f, .acceptInit o p (s.refill f) cw hi hm hp hd hph,
      readsAlike_outside hr (.inl (armPos_of_rest hi (by simp))) rfl rfl (by simp)⟩
  | acceptTime o p _ cw hi hm hp hd hph =>
    exact ⟨f, .acceptTime o p (s.refill f) cw hi hm hp hd hph,
      readsAlike_outside hr (.inl (armPos_of_rest hi (by simp))) rfl rfl (by simp)⟩
  | acceptSeconds o p _ cw hi hm hp hd hph =>
    exact ⟨f, .acceptSeconds o p (s.refill f) cw hi hm hp hd hph,
      readsAlike_outside hr (.inl (armPos_of_rest hi (by simp))) rfl rfl (by simp)⟩
  | acceptDelay o p _ cw ms hi hm hp hd hph =>
    have hpos : (delayStart ms (s.accept cw)).armPos = none := armPos_of_rest hi (by simp)
    exact ⟨{ f with dlyStart := s.tickCounter, dlyTicks := delayTicksOf s.config ms },
      .acceptDelay o p (s.refill f) cw ms hi hm hp hd hph, by simp [hpos], hr.compare, fun _ => ⟨rfl, rfl⟩⟩
  | osc o p _ hi hm =>
    have hi' : s.pollOsc.iseq = .idle := by simpa using hi
    have hpos : s.pollOsc.armPos = none ∨ s.pollOsc.armPos = some .a0 :=
      (pollOsc_mseq hm).imp (fun h => armPos_of_rest hi' (by simp [h])) (armPos_of_mainline hi')
    have hm' : s.pollOsc.mseq ≠ .poll := by rcases pollOsc_mseq hm with h | h <;> simp [h]
    exact ⟨f, pollOsc_refill s f ▸ .osc o p (s.refill f) hi hm,
      readsAlike_outside hr hpos (by simp) (by simp) fun h => absurd h hm'⟩
  | mainlineArm o p _ _ a hi hm ha =>
    obtain ⟨g, hg, hr'⟩ := armMicroStep_keeps_readsAlike (armPos_of_mainline hi hm) hr ha
    exact ⟨g, .mainlineArm o p (s.refill f) _ a hi hm hg, hr'⟩
  | enable o p _ hi hm =>
    exact ⟨f, .enable o p (s.refill f) hi hm,
      readsAlike_outside hr (.inl (armPos_of_rest hi (by simp))) rfl rfl (by simp)⟩
  | poll o p _ hi hm =>
    have hpos : (delayPoll s).armPos = none := by
      rcases delayPoll_cases s with ⟨-, h⟩ | ⟨-, h⟩ <;> rw [h]
      · exact armPos_of_rest hi (by simp)
      · exact armPos_of_rest hi (by simp [hm])
    exact ⟨f, delayPoll_refill (hr.delay hm) ▸ .poll o p (s.refill f) hi hm,
      readsAlike_outside hr (.inl hpos) (by simp) (by simp) (by simp [hm])⟩
  | entry p _ h =>
    exact ⟨f, .entry p (s.refill f) h,
      readsAlike_outside hr (.inr (armPos_of_isr rfl)) rfl rfl fun hm => ⟨hm, rfl, rfl⟩⟩
  | isrArm p _ _ a hi ha =>
    obtain ⟨g, hg, hr'⟩ := armMicroStep_keeps_readsAlike (armPos_of_isr hi) hr ha
    exact ⟨g, .isrArm p (s.refill f) _ a hi hg, hr'⟩
  | inc p _ hi =>
    exact ⟨f, .inc p (s.refill f) hi,
      readsAlike_outside hr (.inl (armPos_of_afterReload (by simp) (by simp))) rfl rfl fun hm => ⟨hm, rfl, rfl⟩⟩
  | chk p _ hi =>
    exact ⟨f, tickCheck_refill s f ▸ .chk p (s.refill f) hi,
      readsAlike_outside hr (.inl (armPos_of_afterReload (by simp) (by simp))) (by simp) (by simp) (by simp)⟩
  | clr p _ hi =>
    exact ⟨f, .clr p (s.refill f) hi,
      readsAlike_outside hr (.inl (armPos_of_afterReload (by simp) (by simp))) rfl rfl fun hm => ⟨hm, rfl, rfl⟩⟩
  | ret p _ hi =>
    obtain ⟨-, -, hrun, -⟩ := id hc
    have hm : ∀ a, s.mseq ≠ .arm a := by rcases hrun (hc.running (by simp [hi])) with h | h <;> simp [h]
    exact ⟨f, .ret p (s.refill f) hi,
      readsAlike_outside hr (.inl (armPos_of_rest rfl hm)) rfl rfl fun hm => ⟨hm, rfl, rfl⟩⟩

end

/-! ### What is refused does not depend on the registers (R74, R124, R125) -/

/-- The name of the refusal of a word that has no meaning in the phase. -/
def refusalOfWord (c : Config) (cw : Nat) : Refusal :=
  match decodeCommand c cw with
  | .ok i => if i = .clockInit then .secondClockInit else .beforeClockInit i.code
  | .error e => refusalOfDecode e

theorem acceptCommand_of_meaningless {s : State} {cw : Nat} (hacc : s.CanAccept)
    (h : ¬Meaningful s.config s.phase cw) : acceptCommand s cw = .refused (refusalOfWord s.config cw) := by
  have hacc' : (s.accept cw).CanAccept := hacc
  cases hd : decodeCommand s.config cw with
  | error e => simp only [acceptCommand_of_rejected hd, refusalOfWord, hd]
  | ok i =>
    simp only [Meaningful, hd] at h
    simp only [acceptCommand_of_decoded hd, refusalOfWord, hd]
    cases hph : s.phase with
    | uninitialized =>
      have hne : i ≠ .clockInit := by rintro rfl; simp [hph] at h
      rw [if_neg hne]
      exact exec_before_clockInit hacc' hph (isCommand_of_decodeCommand hd) hne
    | running =>
      obtain rfl : i = .clockInit := by by_contra hne; simp [hph, hne] at h
      exact exec_second_clockInit hacc' hph

/-- MAINLINE is refused exactly where it accepts a word that has no meaning in the phase. -/
theorem mainlineStep_refused_iff {s : State} {r : Refusal} : mainlineStep s = .refused r ↔
    s.CanAccept ∧ ∃ cw, s.port = some cw ∧ ¬Meaningful s.config s.phase cw ∧ r = refusalOfWord s.config cw := by
  constructor
  · intro h
    by_cases hmean : s.CanAccept → ∀ cw, s.port = some cw → Meaningful s.config s.phase cw
    · obtain ⟨t, ht⟩ := exists_transition_of_mainline none readyPins hmean
      cases h.symm.trans (mainlineStep_of_transition ht)
    · push Not at hmean
      obtain ⟨hacc, cw, hp, hno⟩ := hmean
      rw [mainlineStep_of_presented hacc hp, acceptCommand_of_meaningless hacc hno] at h
      cases h
      exact ⟨hacc, cw, hp, hno, rfl⟩
  · rintro ⟨hacc, cw, hp, hno, rfl⟩
    rw [mainlineStep_of_presented hacc hp, acceptCommand_of_meaningless hacc hno]

/-- A refused turn is one of MAINLINE, and the refusal looks at no register of unspecified reset value. -/
theorem runTurn_refused_refill {s : State} {turn : Turn} {r : Refusal} (f : ResetFill)
    (h : runTurn turn s = .refused r) : runTurn turn (s.refill f) = .refused r := by
  cases turn with
  | counter => cases h
  | mainline o p =>
    have hrefused := mainlineStep_refused_iff.1 h
    have hlatch : ((s.refill f).latchPins p).present o = ((s.latchPins p).present o).refill f :=
      latchTurn_refill s f (.mainline o p)
    show mainlineStep (((s.refill f).latchPins p).present o) = .refused r
    rw [hlatch]
    exact mainlineStep_refused_iff.2 hrefused
  | isr p =>
    obtain ⟨t, ht⟩ := exists_transition_of_isr (s.latchPins p) p
    cases h.symm.trans (isrStep_of_transition ht)
  | reset g => cases h

/-! ### Steps and runs -/

section

variable {s t : State} {f : ResetFill}

theorem step_refill_of_next (hc : s.Coherent) (hr : s.ReadsAlike f) (h : step s = .next t) :
    ∃ g, step (s.refill f) = .next (t.refill g) ∧ t.ReadsAlike g := by
  obtain ⟨hl, s₀, hlatch, h₀, htrans⟩ := step_cases h
  have hc₀ : s₀.Coherent := by rw [h₀]; exact hc
  have hr₀ : s₀.ReadsAlike f := by rw [h₀]; exact ⟨hr.reload, hr.compare, hr.delay⟩
  obtain ⟨g, htrans', hr'⟩ := transition_refill htrans hc₀ hr₀
  refine ⟨g, ?_, hr'⟩
  rw [step_of_legal (s := s.refill f) hl, State.nextTurn, takeTurn_refill]
  rw [hlatch, ← latchTurn_refill] at htrans'
  exact runTurn_of_transition htrans'

theorem step_refill_of_refused {r : Refusal} (h : step s = .refused r) : step (s.refill f) = .refused r := by
  by_cases hl : s.config.Legal
  · rw [step_of_legal (s := s.refill f) hl, State.nextTurn, takeTurn_refill]
    exact runTurn_refused_refill f ((step_of_legal hl).symm.trans h)
  · exact (if_neg hl).trans ((if_neg hl).symm.trans h)

/-- Runs of any length of a coherent machine, with contents that agree wherever a micro-step reads them. -/
theorem run_refill_sameBehaviour (k : Nat) (hc : s.Coherent) (hr : s.ReadsAlike f) :
    SameBehaviour (Host.Core.run core k s) (Host.Core.run core k (s.refill f)) := by
  induction k generalizing s f with
  | zero => exact ⟨rfl, rfl, rfl, rfl, rfl, rfl, rfl, rfl, rfl, rfl, rfl⟩
  | succ k ih =>
    cases h : step s with
    | next t =>
      obtain ⟨g, h', hr'⟩ := step_refill_of_next hc hr h
      have hrun : core.step s = .next t := h
      have hrun' : core.step (s.refill f) = .next (t.refill g) := h'
      simpa only [Host.Core.run, hrun, hrun'] using ih (stepKeepsPhasesCoherent s t hc h) hr'
    | fault r => cases r
    | refused r =>
      have hrun : core.step s = .refused r := h
      have hrun' : core.step (s.refill f) = .refused r := step_refill_of_refused h
      simp only [Host.Core.run, hrun, hrun', SameBehaviour]

end

/-- Settles O42: right after a reset nothing is read, so that the two runs start alike, and every step keeps them so. -/
theorem unspecifiedResetValuesAreUnobservable : Obligations.UnspecifiedResetValuesAreUnobservable := by
  intro s f g k
  rw [takeReset_eq_refill s f g]
  exact run_refill_sameBehaviour k (by simp [State.Coherent]) (readsAlike_of_unread rfl rfl (by simp) _)

end Sys2Proof.Machine
end
